-- ==== Sys2Proof/Word.lean ====
section
/-! DEFINITION. The word types of the block (spec 00_scope.md R11, R15). -/

namespace Sys2Proof

/-- A byte, `u8` (R11). -/
abbrev Byte := BitVec 8

/-- A register value or card address, `u32` (R12, R15). -/
abbrev Word := BitVec 32

/-- A 17-bit byte offset of the host space, from `BLOCK_BASE` (R60). -/
abbrev Offset := BitVec 17

/-- A 16-bit block-memory address (R15, R60). -/
abbrev BAddr := BitVec 16

end Sys2Proof
end

