-- ==== Sys2Proof/Syntax.lean ====
section
/-! DEFINITION. The instructions: one constructor of `Instr` per row of spec/opcode_table.json (R113), and the raw
forms an instruction is read from (R90, R91, R95). -/

namespace Sys2Proof

/-- Width of one host access. Only 8 and 32 bits are ever accepted (R64); the other two name the accesses that
R64 refuses everywhere. -/
inductive Width where
  | w8
  | w16
  | w32
  | w64
  deriving DecidableEq, Repr, Inhabited

/-- One host access, without its offset: a load, or a store of a value. A store narrower than 32 bits carries its
value in the low bits. -/
inductive Access where
  | read (w : Width)
  | write (w : Width) (v : Word)
  deriving DecidableEq, Repr, Inhabited

/-- A host access as it stands on the host port: offset from `BLOCK_BASE`, width, direction, value (R60, R64). -/
structure HostReq where
  offset : Offset
  acc : Access
  deriving DecidableEq, Repr, Inhabited

/-- What an instruction is decoded from, one form per format of the opcode table (R90, R113). -/
inductive Fetched where
  /-- `HOSTOP`: the word written to `CMD` and the operand registers captured with it (R91, R94). -/
  | op (cmd arg0 arg1 addr : Word)
  /-- `HOSTREG`: one host access. -/
  | access (r : HostReq)
  /-- `EVENT`: a timer expiry. -/
  | event
  /-- `FRAME48`: the bytes of a command frame in the order they are sent (R95). -/
  | frame (bytes : List Byte)
  deriving DecidableEq, Repr

/-- The formats of the opcode table. -/
inductive Format where
  | hostop
  | hostreg
  | event
  | frame48
  deriving DecidableEq, Repr

/-- The nine card commands, with the operands a frame carries (R97). -/
inductive CardCmd where
  | cmd0
  | cmd8
  | cmd55
  | acmd41 (hcs : Bool)
  | cmd1
  | cmd58
  | cmd16
  | cmd17 (a : Word)
  | cmd24 (a : Word)
  deriving DecidableEq, Repr

/-- One constructor per row of spec/opcode_table.json, in the table's order. -/
inductive Instr where
  -- HOSTOP: the engine's operations (43_block_io.md, 42_initialize.md)
  | init
  | read (sector : Word) (offset count : BitVec 10) (dest : BAddr)
  | readSkip (sector : Word) (offset count : BitVec 10)
  | writeData (count : Word) (source : BAddr)
  | writeOpen (sector : Word)
  | writeClose
  | reservedOp0
  | reservedOp47 (lo : BitVec 2)
  | reservedOp8F (lo : BitVec 3)
  -- HOSTREG: the host's register accesses (10_state.md, 44_audio_fifo.md)
  | wrCmd (w : Width) (v : Word)
  | rdCmd (w : Width)
  | arg0 (acc : Access)
  | arg1 (acc : Access)
  | addr (acc : Access)
  | rdStatus (w : Width)
  | wrStatus (w : Width) (v : Word)
  | wcur (acc : Access)
  | lastr1 (acc : Access)
  | ocr (acc : Access)
  | rdActrl (w : Width)
  | wrActrl (w : Width) (v : Word)
  | rdAstat (w : Width)
  | wrAstatSwap (w : Width) (v : Word)
  | wrAstatUnderrun (w : Width) (v : Word)
  | acur (acc : Access)
  | rdArem (w : Width)
  | wrArem (w : Width) (v : Word)
  | aremadd (acc : Access)
  | rdTdiv (w : Width)
  | wrTdiv (w : Width) (v : Word)
  | rdDuty (w : Width)
  | wrDuty (w : Width) (v : Word)
  | param (acc : Access)
  | reserved407C (lo : BitVec 6) (acc : Access)
  | reserved80FC (lo : BitVec 7) (acc : Access)
  | unmapped100 (lo : BitVec 8) (acc : Access)
  | unmapped200 (lo : BitVec 9) (acc : Access)
  | unmapped400 (lo : BitVec 10) (acc : Access)
  | unmapped800 (lo : BitVec 11) (acc : Access)
  | unmapped1000 (lo : BitVec 12) (acc : Access)
  | unmapped2000 (lo : BitVec 13) (acc : Access)
  | unmapped4000 (lo : BitVec 14) (acc : Access)
  | unmapped8000 (lo : BitVec 15) (acc : Access)
  | bmem (a : BAddr) (acc : Access)
  -- EVENT: the emitter (44_audio_fifo.md)
  | tick
  -- FRAME48: the card commands the engine sends (41_card_commands.md)
  | cmd0
  | cmd8
  | cmd55
  | acmd41 (hcs : Bool)
  | cmd1
  | cmd58
  | cmd16
  | cmd17 (a : Word)
  | cmd24 (a : Word)
  deriving DecidableEq, Repr

end Sys2Proof
end

