-- ==== Sys2Proof/Config.lean ====
section
/-! DEFINITION. What an instance of the block fixes (R7), the shape of what its environment does, and the model's free
values. -/

namespace Sys2Proof

/-- The OPEN parameters of R7 that a rule depends on. They are fields of the state so that a claim over every state is
a claim over every instance of the block. -/
structure Params where
  /-- `BUF_SIZE`, 1 to 32512. -/
  bufSize : Nat
  /-- `RETRY_IDLE`, at least 1. -/
  retryIdle : Nat
  /-- `RETRY_INIT`, at least 1. -/
  retryInit : Nat
  /-- `RETRY_TOKEN`, at least 1. -/
  retryToken : Nat
  /-- `RETRY_BUSY`, at least 1. -/
  retryBusy : Nat
  deriving DecidableEq, Repr

/-- The parameters of the reset state: the retry defaults of R7 and the buffer size of the spec's test vectors
(95_test_vectors.md, Conventions). DESIGN CHOICE: the spec leaves them open (log entry 2). -/
def Params.default : Params where
  bufSize := 4
  retryIdle := 100
  retryInit := 10000
  retryToken := 1000
  retryBusy := 5000

/-- A bus event `(CSA, FAST, out, in)`: one byte exchange on the serial bus (R130). -/
structure BusEvent where
  csa : Bool
  fast : Bool
  out : Byte
  inp : Byte
  deriving DecidableEq, Repr

/-- One cycle of the serial clock inside an exchange: the transport's state, the bit on the data-out line and the bit taken
from the data-in line (R138). -/
structure ClockCycle where
  csa : Bool
  fast : Bool
  out : Bool
  inp : Bool
  deriving DecidableEq, Repr

/-- One indivisible step of the block and its environment (R71), or the reset input (R330). -/
inductive Move where
  /-- The host makes one access (R64 to R67). -/
  | host (r : HostReq)
  /-- The engine takes one step (R71, R210). -/
  | engine
  /-- One clock of `F_TCLK` (R244). -/
  | tclk
  /-- One clock of `F_PWM` (R245). -/
  | pclk
  /-- The reset input (R330). -/
  | reset
  deriving DecidableEq, Repr, Inhabited

/-- FREE VALUE: the byte the card returns on the exchange that follows a bus trace (newest event first), R10, R131
(log entry 3). -/
opaque Config.cardByte : List BusEvent → Byte

/-- FREE VALUE: what the block-memory byte at an address holds after a reset and before anything writes it, for each
reset of a run (R79, R333; log entry 4). -/
opaque Config.bmemUnwritten : Nat → Nat → Byte

/-- FREE VALUE: the level of the data-out line between exchanges, after a given trace (R135 gives the idle level only;
log entry 5). -/
opaque Config.doutAfter : List BusEvent → Bool

/-- FREE VALUE: which agent moves next, and with which host access, when the state lists no move (R71; log entry 6). -/
opaque Config.freeMove : Nat → Move

end Sys2Proof
end

