-- ==== Sys2Proof/WellFormed.lean ====
section
/-! DEFINITION. Which instruction terms stand for something the block can be given: every other term is a second name
for one of these. -/

namespace Sys2Proof

/-- The value of a store fits its width; a 64-bit store keeps only its low word, since no store of that width is ever
accepted (R64). -/
def Width.fits (w : Width) (v : Word) : Bool :=
  match w with
  | .w8 => decide (v.toNat < 2 ^ 8)
  | .w16 => decide (v.toNat < 2 ^ 16)
  | .w32 => true
  | .w64 => true

/-- The access's value fits its width. -/
def Access.wf (acc : Access) : Bool :=
  match acc with
  | .read _ => true
  | .write w v => w.fits v

/-- A write to `ASTAT` whose only W1C bit is `UNDERRUN` (R248). Every other write to `ASTAT` is named by the `SWAP` row
(R247), so that one write has one name (log entry 9). -/
def underrunOnly (v : Word) : Bool :=
  v.getLsbD 2 && !v.getLsbD 1

/-- The instruction is one the decoder can give. -/
def Instr.wf (i : Instr) : Bool :=
  match i with
  | .init => true
  | .read _ _ _ _ => true
  | .readSkip _ _ _ => true
  | .writeData _ _ => true
  | .writeOpen sector => decide (sector ≠ 0)
  | .writeClose => true
  | .reservedOp0 => true
  | .reservedOp47 _ => true
  | .reservedOp8F _ => true
  | .wrCmd w v => w.fits v
  | .rdCmd _ => true
  | .arg0 acc => acc.wf
  | .arg1 acc => acc.wf
  | .addr acc => acc.wf
  | .rdStatus _ => true
  | .wrStatus w v => w.fits v
  | .wcur acc => acc.wf
  | .lastr1 acc => acc.wf
  | .ocr acc => acc.wf
  | .rdActrl _ => true
  | .wrActrl w v => w.fits v
  | .rdAstat _ => true
  | .wrAstatSwap w v => w.fits v && !underrunOnly v
  | .wrAstatUnderrun w v => w.fits v && underrunOnly v
  | .acur acc => acc.wf
  | .rdArem _ => true
  | .wrArem w v => w.fits v
  | .aremadd acc => acc.wf
  | .rdTdiv _ => true
  | .wrTdiv w v => w.fits v
  | .rdDuty _ => true
  | .wrDuty w v => w.fits v
  | .param acc => acc.wf
  | .reserved407C _ acc => acc.wf
  | .reserved80FC _ acc => acc.wf
  | .unmapped100 _ acc => acc.wf
  | .unmapped200 _ acc => acc.wf
  | .unmapped400 _ acc => acc.wf
  | .unmapped800 _ acc => acc.wf
  | .unmapped1000 _ acc => acc.wf
  | .unmapped2000 _ acc => acc.wf
  | .unmapped4000 _ acc => acc.wf
  | .unmapped8000 _ acc => acc.wf
  | .bmem _ acc => acc.wf
  | .tick => true
  | .cmd0 => true
  | .cmd8 => true
  | .cmd55 => true
  | .acmd41 _ => true
  | .cmd1 => true
  | .cmd58 => true
  | .cmd16 => true
  | .cmd17 _ => true
  | .cmd24 _ => true

end Sys2Proof
end

