-- ==== Sys2Proof/Decode.lean ====
section
/-! DEFINITION. Decoding of the opcode table's formats, total and rejecting by name, and after it the encoder
(30_encoding.md). -/

namespace Sys2Proof

/-- Why a raw form is no row of the opcode table. -/
inductive Reject where
  /-- A register-space offset 0x00 to 0x3F that is not a multiple of 4 (R64): a bus error by R65. -/
  | misalignedRegister
  /-- A command frame that is not 6 bytes long (R95). -/
  | frameLength
  /-- A command byte that is none of the nine of R97. -/
  | commandByte
  /-- An argument the engine never sends with that command (R97, R110). -/
  | argument
  /-- A trailer the engine never sends with that command (R98). -/
  | trailer
  deriving DecidableEq, Repr

/-! ### Card commands (R95 to R98) -/

/-- The 6-bit command index (R97). -/
def CardCmd.index (c : CardCmd) : BitVec 6 :=
  match c with
  | .cmd0 => 0
  | .cmd8 => 8
  | .cmd55 => 55
  | .acmd41 _ => 41
  | .cmd1 => 1
  | .cmd58 => 58
  | .cmd16 => 16
  | .cmd17 _ => 17
  | .cmd24 _ => 24

/-- The 32-bit argument (R97, R99). -/
def CardCmd.arg (c : CardCmd) : Word :=
  match c with
  | .cmd0 => 0x00000000
  | .cmd8 => 0x000001AA
  | .cmd55 => 0x00000000
  | .acmd41 hcs => if hcs then 0x40000000 else 0x00000000
  | .cmd1 => 0x00000000
  | .cmd58 => 0x00000000
  | .cmd16 => 0x00000200
  | .cmd17 a => a
  | .cmd24 a => a

/-- The trailer byte (R98). -/
def CardCmd.trailer (c : CardCmd) : Byte :=
  match c with
  | .cmd0 => 0x95
  | .cmd8 => 0x87
  | .cmd55 => 0x01
  | .acmd41 _ => 0x01
  | .cmd1 => 0x01
  | .cmd58 => 0x01
  | .cmd16 => 0x01
  | .cmd17 _ => 0x01
  | .cmd24 _ => 0x01

/-- Whether the command is an application command: only ACMD41 is (R97, R151). -/
def CardCmd.isApp (c : CardCmd) : Bool :=
  match c with
  | .acmd41 _ => true
  | .cmd0 => false
  | .cmd8 => false
  | .cmd55 => false
  | .cmd1 => false
  | .cmd58 => false
  | .cmd16 => false
  | .cmd17 _ => false
  | .cmd24 _ => false

/-- The command byte, `0b01 ++ index` (R96). -/
def CardCmd.commandByte (c : CardCmd) : Byte :=
  0b01#2 ++ c.index

/-- Byte `k` of the frame, in sending order: command byte, argument most significant byte first, trailer (R95). -/
def CardCmd.frameByte (c : CardCmd) (k : Nat) : Byte :=
  match k with
  | 0 => c.commandByte
  | 1 => c.arg.extractLsb' 24 8
  | 2 => c.arg.extractLsb' 16 8
  | 3 => c.arg.extractLsb' 8 8
  | 4 => c.arg.extractLsb' 0 8
  | _ => c.trailer

/-- The 6 bytes of a command frame, in sending order (R95). -/
def CardCmd.frame (c : CardCmd) : List Byte :=
  [c.frameByte 0, c.frameByte 1, c.frameByte 2, c.frameByte 3, c.frameByte 4, c.frameByte 5]

/-- The instruction of a card command. -/
def CardCmd.instr (c : CardCmd) : Instr :=
  match c with
  | .cmd0 => .cmd0
  | .cmd8 => .cmd8
  | .cmd55 => .cmd55
  | .acmd41 hcs => .acmd41 hcs
  | .cmd1 => .cmd1
  | .cmd58 => .cmd58
  | .cmd16 => .cmd16
  | .cmd17 a => .cmd17 a
  | .cmd24 a => .cmd24 a

/-! ### Decoding -/

/-- The store's value cut to its width. -/
def Width.trim (w : Width) (v : Word) : Word :=
  match w with
  | .w8 => (v.extractLsb' 0 8).setWidth 32
  | .w16 => (v.extractLsb' 0 16).setWidth 32
  | .w32 => v
  | .w64 => v

/-- The access with its value cut to its width. -/
def Access.trim (acc : Access) : Access :=
  match acc with
  | .read w => .read w
  | .write w v => .write w (w.trim v)

/-- The card command a command byte and an argument name, by the opcode table's match and mask on the command byte. -/
def CardCmd.ofByte (b : Byte) (arg : Word) : Option CardCmd :=
  if b = 0x40 then some .cmd0
  else if b = 0x48 then some .cmd8
  else if b = 0x77 then some .cmd55
  else if b = 0x69 then some (.acmd41 (arg.getLsbD 30))
  else if b = 0x41 then some .cmd1
  else if b = 0x7A then some .cmd58
  else if b = 0x50 then some .cmd16
  else if b = 0x51 then some (.cmd17 arg)
  else if b = 0x58 then some (.cmd24 arg)
  else none

/-- A command frame: exactly the frames of R97 are read. -/
def decodeFrame (bytes : List Byte) : Except Reject Instr :=
  match bytes with
  | [b, a3, a2, a1, a0, t] =>
    let arg : Word := a3 ++ a2 ++ a1 ++ a0
    match CardCmd.ofByte b arg with
    | none => .error .commandByte
    | some c =>
      if c.arg ≠ arg then .error .argument
      else if c.trailer ≠ t then .error .trailer
      else .ok c.instr
  | _ => .error .frameLength

/-- The operation a `CMD` word names together with its operand registers (R91 to R94). Total: a reserved `OP` is a row
of its own, and the reserved bits of every word are ignored (R93). -/
def decodeOp (cmd arg0 arg1 addr : Word) : Instr :=
  let den := cmd.getLsbD 8
  let off := arg1.extractLsb' 0 10
  let cnt := arg1.extractLsb' 16 10
  match (cmd.extractLsb' 0 4).toNat with
  | 0 => .reservedOp0
  | 1 => .init
  | 2 => if den then .read arg0 off cnt (addr.extractLsb' 0 16) else .readSkip arg0 off cnt
  | 3 =>
    if den then .writeData arg0 (addr.extractLsb' 0 16)
    else if arg0 = 0 then .writeClose else .writeOpen arg0
  | 4 => .reservedOp47 (cmd.extractLsb' 0 2)
  | 5 => .reservedOp47 (cmd.extractLsb' 0 2)
  | 6 => .reservedOp47 (cmd.extractLsb' 0 2)
  | 7 => .reservedOp47 (cmd.extractLsb' 0 2)
  | _ => .reservedOp8F (cmd.extractLsb' 0 3)

/-- The instruction of an access to register `k`, at offset `4 * k` (R20). -/
def decodeRegister (k : Nat) (acc : Access) : Instr :=
  match k with
  | 0 => match acc with
    | .read w => .rdCmd w
    | .write w v => .wrCmd w v
  | 1 => .arg0 acc
  | 2 => .arg1 acc
  | 3 => .addr acc
  | 4 => match acc with
    | .read w => .rdStatus w
    | .write w v => .wrStatus w v
  | 5 => .wcur acc
  | 6 => .lastr1 acc
  | 7 => .ocr acc
  | 8 => match acc with
    | .read w => .rdActrl w
    | .write w v => .wrActrl w v
  | 9 => match acc with
    | .read w => .rdAstat w
    | .write w v => if underrunOnly v then .wrAstatUnderrun w v else .wrAstatSwap w v
  | 10 => .acur acc
  | 11 => match acc with
    | .read w => .rdArem w
    | .write w v => .wrArem w v
  | 12 => .aremadd acc
  | 13 => match acc with
    | .read w => .rdTdiv w
    | .write w v => .wrTdiv w v
  | 14 => match acc with
    | .read w => .rdDuty w
    | .write w v => .wrDuty w v
  | _ => .param acc

/-- The instruction of a host access, by its offset (R63). -/
def decodeAccess (r : HostReq) : Except Reject Instr :=
  let o := r.offset.toNat
  let acc := r.acc.trim
  if o < 0x40 then
    if o % 4 = 0 then .ok (decodeRegister (o / 4) acc) else .error .misalignedRegister
  else if o < 0x80 then .ok (.reserved407C (BitVec.ofNat 6 o) acc)
  else if o < 0x100 then .ok (.reserved80FC (BitVec.ofNat 7 o) acc)
  else if o < 0x200 then .ok (.unmapped100 (BitVec.ofNat 8 o) acc)
  else if o < 0x400 then .ok (.unmapped200 (BitVec.ofNat 9 o) acc)
  else if o < 0x800 then .ok (.unmapped400 (BitVec.ofNat 10 o) acc)
  else if o < 0x1000 then .ok (.unmapped800 (BitVec.ofNat 11 o) acc)
  else if o < 0x2000 then .ok (.unmapped1000 (BitVec.ofNat 12 o) acc)
  else if o < 0x4000 then .ok (.unmapped2000 (BitVec.ofNat 13 o) acc)
  else if o < 0x8000 then .ok (.unmapped4000 (BitVec.ofNat 14 o) acc)
  else if o < 0x10000 then .ok (.unmapped8000 (BitVec.ofNat 15 o) acc)
  else .ok (.bmem (BitVec.ofNat 16 o) acc)

/-- The instruction of a raw form, or the reason it is none. -/
def decode (f : Fetched) : Except Reject Instr :=
  match f with
  | .op cmd arg0 arg1 addr => .ok (decodeOp cmd arg0 arg1 addr)
  | .access r => decodeAccess r
  | .event => .ok .tick
  | .frame bytes => decodeFrame bytes

/-! ### Encoding -/

/-- The `ARG1` word of an offset and a count (R94). -/
def arg1Word (offset count : BitVec 10) : Word :=
  0#6 ++ count ++ 0#6 ++ offset

/-- An access at a host offset. -/
def accessAt (o : Nat) (acc : Access) : Fetched :=
  .access { offset := BitVec.ofNat 17 o, acc := acc }

/-- The raw form of an instruction: the `CMD` words of R92 with their operand registers, the offsets of R20 and R63,
the frames of R97. An operand register an operation does not use is 0. -/
def encode (i : Instr) : Fetched :=
  match i with
  | .init => .op 0x00000001 0 0 0
  | .read sector offset count dest => .op 0x00000102 sector (arg1Word offset count) (dest.setWidth 32)
  | .readSkip sector offset count => .op 0x00000002 sector (arg1Word offset count) 0
  | .writeData count source => .op 0x00000103 count 0 (source.setWidth 32)
  | .writeOpen sector => .op 0x00000003 sector 0 0
  | .writeClose => .op 0x00000003 0 0 0
  | .reservedOp0 => .op 0x00000000 0 0 0
  | .reservedOp47 lo => .op (0#28 ++ 0b01#2 ++ lo) 0 0 0
  | .reservedOp8F lo => .op (0#28 ++ 0b1#1 ++ lo) 0 0 0
  | .wrCmd w v => accessAt 0x00 (.write w v)
  | .rdCmd w => accessAt 0x00 (.read w)
  | .arg0 acc => accessAt 0x04 acc
  | .arg1 acc => accessAt 0x08 acc
  | .addr acc => accessAt 0x0C acc
  | .rdStatus w => accessAt 0x10 (.read w)
  | .wrStatus w v => accessAt 0x10 (.write w v)
  | .wcur acc => accessAt 0x14 acc
  | .lastr1 acc => accessAt 0x18 acc
  | .ocr acc => accessAt 0x1C acc
  | .rdActrl w => accessAt 0x20 (.read w)
  | .wrActrl w v => accessAt 0x20 (.write w v)
  | .rdAstat w => accessAt 0x24 (.read w)
  | .wrAstatSwap w v => accessAt 0x24 (.write w v)
  | .wrAstatUnderrun w v => accessAt 0x24 (.write w v)
  | .acur acc => accessAt 0x28 acc
  | .rdArem w => accessAt 0x2C (.read w)
  | .wrArem w v => accessAt 0x2C (.write w v)
  | .aremadd acc => accessAt 0x30 acc
  | .rdTdiv w => accessAt 0x34 (.read w)
  | .wrTdiv w v => accessAt 0x34 (.write w v)
  | .rdDuty w => accessAt 0x38 (.read w)
  | .wrDuty w v => accessAt 0x38 (.write w v)
  | .param acc => accessAt 0x3C acc
  | .reserved407C lo acc => accessAt (0x40 + lo.toNat) acc
  | .reserved80FC lo acc => accessAt (0x80 + lo.toNat) acc
  | .unmapped100 lo acc => accessAt (0x100 + lo.toNat) acc
  | .unmapped200 lo acc => accessAt (0x200 + lo.toNat) acc
  | .unmapped400 lo acc => accessAt (0x400 + lo.toNat) acc
  | .unmapped800 lo acc => accessAt (0x800 + lo.toNat) acc
  | .unmapped1000 lo acc => accessAt (0x1000 + lo.toNat) acc
  | .unmapped2000 lo acc => accessAt (0x2000 + lo.toNat) acc
  | .unmapped4000 lo acc => accessAt (0x4000 + lo.toNat) acc
  | .unmapped8000 lo acc => accessAt (0x8000 + lo.toNat) acc
  | .bmem a acc => accessAt (0x10000 + a.toNat) acc
  | .tick => .event
  | .cmd0 => .frame CardCmd.cmd0.frame
  | .cmd8 => .frame CardCmd.cmd8.frame
  | .cmd55 => .frame CardCmd.cmd55.frame
  | .acmd41 hcs => .frame (CardCmd.acmd41 hcs).frame
  | .cmd1 => .frame CardCmd.cmd1.frame
  | .cmd58 => .frame CardCmd.cmd58.frame
  | .cmd16 => .frame CardCmd.cmd16.frame
  | .cmd17 a => .frame (CardCmd.cmd17 a).frame
  | .cmd24 a => .frame (CardCmd.cmd24 a).frame

/-- The format of a raw form. -/
def Fetched.format (f : Fetched) : Format :=
  match f with
  | .op _ _ _ _ => .hostop
  | .access _ => .hostreg
  | .event => .event
  | .frame _ => .frame48

/-! ### The table's own numbering -/

/-- The raw form of a word of the opcode table. A `HOSTREG` row has 17 to 24 bits: bits 16:0 are the offset, and bit 17,
to which the table gives no value, is the direction (0 read, 1 write; log entry 10). A `FRAME48` row is one byte, or six,
with bits 7:6 = 0b01. Of one byte, the argument and trailer are those that R97 and R98 fix for it; where R97 leaves the argument
open it is 0, so ACMD41 has HCS clear and CMD17 and CMD24 have card address 0 (DESIGN CHOICE, log entry 10). Of six, the command
byte is bits 7:0 and the trailer bits 47:40, the first byte sent lowest (DESIGN CHOICE, log entry 10: R113 gives a match on the
command byte only, and R95's own 48-bit string has it in bits 47:40). A `HOSTOP` row is the low bits of a `CMD` word, its
operand registers 0. -/
def tableForm (nbits w : Nat) : Fetched :=
  if nbits = 0 then .event
  else if nbits ≤ 8 ∧ w % 256 / 64 = 1 then
    let b := BitVec.ofNat 8 w
    match CardCmd.ofByte b 0 with
    | some c => .frame (b :: c.frame.tail)
    | none => .frame [b]
  else if 16 < nbits ∧ nbits ≤ 24 then
    accessAt (w % 2 ^ 17) (if w / 2 ^ 17 % 2 = 1 then .write .w32 0 else .read .w32)
  else if nbits = 48 then
    .frame [BitVec.ofNat 8 w, BitVec.ofNat 8 (w / 2 ^ 8), BitVec.ofNat 8 (w / 2 ^ 16), BitVec.ofNat 8 (w / 2 ^ 24),
      BitVec.ofNat 8 (w / 2 ^ 32), BitVec.ofNat 8 (w / 2 ^ 40)]
  else .op (BitVec.ofNat 32 w) 0 0 0

/-- The instruction the decoder reads from a word of the opcode table. -/
def decodeTableWord (nbits w : Nat) : Option Instr :=
  match decode (tableForm nbits w) with
  | .ok i => some i
  | .error _ => none

end Sys2Proof
end

