-- ==== Sys2Proof/Machine/State.lean ====
section
/-! DEFINITION. The state of the block, as plain data, and the state after reset (10_state.md). -/

namespace Sys2Proof.Machine

/-- `STATUS.RESULT` (R28). -/
inductive Result where
  | ok
  | error
  | notRdy
  | parErr
  deriving DecidableEq, Repr

/-- `STATUS.FAMILY` (R29). -/
inductive Family where
  | unknown
  | sdv1
  | sdv2
  | mmcv3
  deriving DecidableEq, Repr

/-- The operation latches of R22: what the engine captured at the launch. -/
structure Latches where
  op : BitVec 4
  den : Bool
  arg0 : Word
  off : BitVec 10
  cnt : BitVec 10
  addr : BAddr
  deriving DecidableEq, Repr

/-- Where in an operation a card command was sent from, with that place's counters (R180, R211, R219). `left` counts the
attempts a retry loop still has after the running one (R152). -/
inductive Caller where
  /-- INIT step 2, the idle-reset loop (R183). -/
  | initIdle (left : Nat)
  /-- INIT step 3, the version check (R184). -/
  | initVersion
  /-- INIT step 3, the SD v2 loop (R185). -/
  | initHcs (left : Nat)
  /-- INIT step 3, the capacity read (R186). -/
  | initOcr
  /-- INIT step 4, the probe (R187). -/
  | initProbe
  /-- INIT step 4, the loop of the candidate family (R188). -/
  | initLoop (cand : Family) (left : Nat)
  /-- INIT step 5, the set-block-length of the family found (R189). -/
  | initBlockLen (fam : Family)
  /-- READ (R213). -/
  | read
  /-- WRITE open (R219). -/
  | writeOpen
  deriving DecidableEq, Repr

/-- What happens to a command's response: it goes back to the caller, or it is the leading command's, and the application
command may follow (R151). -/
inductive Ret where
  | plain (k : Caller)
  | lead (hcs : Bool) (k : Caller)
  deriving DecidableEq, Repr

/-- The steps of `send_command` (R150): deselect, select, flush, the 6 frame bytes, the response poll. -/
inductive CmdPhase where
  | desel
  | sel
  | flush
  /-- Frame byte `k` is next. -/
  | byte (k : Nat)
  /-- A poll exchange is next, and `left` more may follow it. -/
  | poll (left : Nat)
  deriving DecidableEq, Repr

/-- Which 4-byte word `rd4` is reading (R102): the version-check echo or the operating-condition word. -/
inductive WordFor where
  | echo
  | ocr
  deriving DecidableEq, Repr

/-- Who runs `close_write`: WRITE close (R220) or INIT step 0 (R181). -/
inductive CloseFor where
  | op
  | init
  deriving DecidableEq, Repr

/-- The engine's sequencer position: the step that is next and the local values it needs (R21). -/
inductive EnginePos where
  /-- No operation runs; no local state. `STATUS.BUSY` is 0 exactly here. -/
  | idle
  /-- An operation was launched; its first step is next (R210). -/
  | launched
  /-- Inside `send_command` (R150). -/
  | cmd (ret : Ret) (c : CardCmd) (ph : CmdPhase)
  /-- INIT: `tinit()`, after the close of an open write (R181, R183). -/
  | initTinit
  /-- INIT: the deselect of step 1 (R183). -/
  | initDesel
  /-- INIT: `left + 1` power-up exchanges are still to come (R183). -/
  | powerUp (left : Nat)
  /-- `rd4()`: the next byte of the word, `left` more after it, `acc` the bytes so far (R162). -/
  | rd4 (k : WordFor) (left : Nat) (acc : Word)
  /-- INIT step 6: write the descriptor and deselect (R190). -/
  | initEnd (fam : Family) (blk : Bool)
  /-- INIT step 6: `set_fast()` (R190). -/
  | setFast
  /-- READ: refusal checks (2) to (4) of R212. -/
  | readCheckOpen
  | readCheckSum
  | readCheckRange
  /-- READ: a token-wait exchange, and `left` more may follow it (R214). -/
  | token (left : Nat)
  /-- READ: byte `j` of the 514 packet bytes is next (R215). -/
  | packet (j : Nat)
  /-- `deselect()`, then the operation ends with `r` (R216, R219). -/
  | desel (r : Result)
  /-- WRITE open: the second refusal check (R219). -/
  | openCheck
  /-- WRITE open: the gap byte, then the data-start token (R219). -/
  | gap
  | openToken
  /-- WRITE data: byte `i` of `n` is next (R218). -/
  | sendData (i n : Nat)
  /-- `close_write` (R220): zero padding; checksum bytes (`second` once one is sent); the data response; a busy-poll
  exchange, and `left` more may follow it; the closing deselect. -/
  | closePad (k : CloseFor)
  | closeCrc (k : CloseFor) (second : Bool)
  | closeResp (k : CloseFor)
  | closeBusy (k : CloseFor) (left : Nat)
  | closeDesel (k : CloseFor) (r : Result)
  /-- `finish(r)` or `raise r` is next (R300). -/
  | fin (r : Result)
  deriving DecidableEq, Repr

/-- What the host port answered to the last host access (R65, R111). The model's own field (log entry 7). -/
inductive HostResp where
  /-- No access yet. -/
  | none
  /-- A store was accepted. -/
  | done
  /-- A load returned a value; a byte load's value is zero-extended. -/
  | data (v : Word)
  /-- The access was a bus error; no value was returned (R65, R308). -/
  | busError
  deriving DecidableEq, Repr

/-- The state of one block, its block memory, its bus trace, and what its environment is about to do. -/
structure State where
  /-- The instance's parameters (R7); `PARAM` reads `bufSize` (R41). -/
  par : Params
  /-- `CMD` (R23). -/
  cmdOp : BitVec 4
  cmdDen : Bool
  /-- `ARG0` (R24). -/
  arg0 : Word
  /-- `ARG1.OFFSET` and `ARG1.COUNT` (R25). -/
  argOffset : BitVec 10
  argCount : BitVec 10
  /-- `ADDR` (R26). -/
  addr : BAddr
  /-- `STATUS` (R27); `BUSY` and `READY` are computed. -/
  result : Result
  family : Family
  block : Bool
  wopen : Bool
  fast : Bool
  csa : Bool
  lost : Bool
  /-- `WCUR` (R31). -/
  wcur : BitVec 10
  /-- `LASTR1` (R32). -/
  lastR1 : Byte
  /-- `OCR` (R33). -/
  ocr : Word
  /-- `ACTRL` (R34). -/
  ten : Bool
  pen : Bool
  ien : Bool
  /-- `ASTAT` (R35): `active` is index 1; `DRAINED` is computed. -/
  active : Bool
  swap : Bool
  underrun : Bool
  /-- `ACUR` (R36). -/
  acur : BitVec 16
  /-- `AREM` (R37). -/
  arem : Word
  /-- `TDIV` (R39). -/
  tdiv : BitVec 16
  /-- `DUTY` (R40). -/
  duty : Byte
  /-- The operation latches (R22). -/
  latch : Latches
  /-- The engine's sequencer position (R21). -/
  eng : EnginePos
  /-- The timer count `TCNT` (R43, R244). -/
  tcnt : BitVec 16
  /-- The pulse-width counter `PCNT` (R43, R245). -/
  pcnt : Byte
  /-- Level of the serial data-out line (R135). -/
  dout : Bool
  /-- Block memory (R61): the bytes written since the last reset, addresses strictly rising. -/
  mem : List Host.Cell
  /-- The host port's last answer. -/
  resp : HostResp
  /-- The bus trace, newest event first (R130). -/
  trace : List BusEvent
  /-- Environment: the bytes the card returns next; past its end they are `Config.cardByte`. -/
  cardIn : List Byte
  /-- Environment: the moves to come; past its end they are `Config.freeMove`. -/
  moves : List Move
  /-- The model's own counter: how many moves were drawn from `Config.freeMove`. -/
  draws : Nat
  /-- The model's own counter: how many resets have happened, the index of `Config.bmemUnwritten`. -/
  epoch : Nat
  deriving DecidableEq, Repr

/-- The reasons the machine stops. There is none: R308 makes the block's only fault, the bus error, an answer to the
host that changes no block state and is never final, so it is a next state here (log entry 1). -/
inductive Fault where
  deriving DecidableEq, Repr

/-- The refusals. -/
inductive Refusal where
  /-- An instruction without a meaning. No arm of `exec` raises it: every row is modelled. Safe. -/
  | notModelled (mnemonic : String)
  deriving DecidableEq, Repr

/-- The state of R50 and R330 for an instance of the block. Latches: DESIGN CHOICE zero, since R50 gives them no value
and no rule reads them before a launch writes them (log entry 8). The model's own fields start empty or at 0. -/
def State.resetOf (p : Params) : State where
  par := p
  cmdOp := 0
  cmdDen := false
  arg0 := 0
  argOffset := 0
  argCount := 0
  addr := 0
  result := .notRdy
  family := .unknown
  block := false
  wopen := false
  fast := false
  csa := false
  lost := false
  wcur := 0
  lastR1 := 0xFF
  ocr := 0
  ten := false
  pen := false
  ien := false
  active := false
  swap := false
  underrun := false
  acur := 0
  arem := 0
  tdiv := 0xFFFF
  duty := 0x80
  latch := { op := 0, den := false, arg0 := 0, off := 0, cnt := 0, addr := 0 }
  eng := .idle
  tcnt := 0
  pcnt := 0
  dout := true
  mem := []
  resp := .none
  trace := []
  cardIn := []
  moves := []
  draws := 0
  epoch := 0

/-- The machine right after reset, for the parameters of `Params.default`. -/
def State.reset : State := State.resetOf Params.default

end Sys2Proof.Machine
end

