-- ==== Sys2Proof/Machine/Ops.lean ====
section
/-! DEFINITION. The named operations over block memory, the host port, the serial bus and the sequencer position, and the
block's one exceptional answer, the bus error. -/

namespace Sys2Proof.Machine

/-! ### Fixed numbers of R7 -/

/-- `SECTOR_SIZE`. -/
def sectorSize : Nat := 512

/-- `CRC_BYTES`. -/
def crcBytes : Nat := 2

/-- `POLL_R1`. -/
def pollR1 : Nat := 10

/-- `N_PWRUP`. -/
def nPwrUp : Nat := 10

/-- `XFER_SIZE`. -/
def xferSize : Nat := 512

/-- `MID_SCALE`. -/
def midScale : Byte := 0x80

/-- `BMEM_SIZE` = 2·`BUF_SIZE` + `XFER_SIZE`. -/
def bmemSize (p : Params) : Nat := 2 * p.bufSize + xferSize

/-- The ranges R7 gives the parameters. -/
def paramsOk (p : Params) : Bool :=
  decide (1 ≤ p.bufSize ∧ p.bufSize ≤ 32512 ∧ 1 ≤ p.retryIdle ∧ 1 ≤ p.retryInit ∧ 1 ≤ p.retryToken ∧ 1 ≤ p.retryBusy)

/-! ### Block memory: a list of cells in canonical form (R61, R62) -/

/-- The byte a cell list holds at an address, if one was written there. -/
def Memory.find (m : List Host.Cell) (a : Nat) : Option Byte :=
  match m with
  | [] => none
  | (b, v) :: rest => if a = b then some v else Memory.find rest a

/-- Store a byte, keeping the addresses strictly rising. -/
def Memory.put (m : List Host.Cell) (a : Nat) (v : Byte) : List Host.Cell :=
  match m with
  | [] => [(a, v)]
  | (b, w) :: rest =>
    if a < b then (a, v) :: (b, w) :: rest
    else if a = b then (a, v) :: rest
    else (b, w) :: Memory.put rest a v

/-- Every address of a cell list is above `lo`. -/
def Memory.above (lo : Nat) (m : List Host.Cell) : Bool :=
  match m with
  | [] => true
  | (b, _) :: _ => decide (lo < b)

/-- Canonical form: addresses strictly rising. No entry can equal what an unlisted address reads as, since an unlisted
address holds no listed value (log entry 4). -/
def Memory.wf (m : List Host.Cell) : Bool :=
  match m with
  | [] => true
  | (b, _) :: rest => Memory.above b rest && Memory.wf rest

/-- `MemRead(a, 1)` (R62). A byte nothing has written since the reset is a FREE VALUE, the same at every read until a
write (R79). -/
def memRead (s : State) (a : Nat) : Byte :=
  match Memory.find s.mem a with
  | some v => v
  | none => Config.bmemUnwritten s.epoch a

/-- `MemWrite(a, 1, v)` (R62): defined inside block memory only, and every rule that calls it has checked that. -/
def memWrite (a : Nat) (v : Byte) (s : State) : State :=
  if a < bmemSize s.par then { s with mem := Memory.put s.mem a v } else s

/-- A 32-bit load of block memory, little-endian (R68 (d)). -/
def memReadWord (s : State) (a : Nat) : Word :=
  memRead s (a + 3) ++ memRead s (a + 2) ++ memRead s (a + 1) ++ memRead s a

/-- A 32-bit store to block memory, little-endian (R68 (d)). -/
def memWriteWord (a : Nat) (v : Word) (s : State) : State :=
  memWrite (a + 3) (v.extractLsb' 24 8)
    (memWrite (a + 2) (v.extractLsb' 16 8)
      (memWrite (a + 1) (v.extractLsb' 8 8)
        (memWrite a (v.extractLsb' 0 8) s)))

/-! ### The host port -/

/-- The host port's answer to an access. -/
def respond (r : HostResp) (s : State) : State :=
  { s with resp := r }

/-- The bus error (R65, R308): the block's one exceptional answer. It changes no block state, records nothing in the
block, and returns an error response and no value. There is no handler in the block and nothing to return from (R314,
R315). -/
def busError (s : State) : State :=
  respond .busError s

/-- A register load: 32 bits wide, or a bus error (R64, R65). Reads have no side effect (R66). -/
def regRead (w : Width) (v : Word) (s : State) : State :=
  match w with
  | .w32 => respond (.data v) s
  | .w8 => busError s
  | .w16 => busError s
  | .w64 => busError s

/-- A register store: 32 bits wide, or a bus error (R64, R65). -/
def regWrite (w : Width) (f : State → State) (s : State) : State :=
  match w with
  | .w32 => respond .done (f s)
  | .w8 => busError s
  | .w16 => busError s
  | .w64 => busError s

/-- A load or store of one register that reads as `v` and is written by `f` (R20). -/
def regAccess (acc : Access) (v : Word) (f : Word → State → State) (s : State) : State :=
  match acc with
  | .read w => regRead w v s
  | .write w x => regWrite w (f x) s

/-- A store that is ignored: to a read-only register or a reserved offset (R20, R42). -/
def ignoreWrite (_v : Word) (s : State) : State := s

/-! ### The sequencer -/

/-- The engine's next step. -/
def goto (p : EnginePos) (s : State) : State :=
  { s with eng := p }

/-- `finish(r)` and `raise r` (R300): `RESULT` is written, and `BUSY` falls because the engine is idle again. Nothing
else changes. -/
def finish (r : Result) (s : State) : State :=
  { s with result := r, eng := .idle }

/-- The clearing of the card descriptor at INIT's start (R182, R225). -/
def clearDescriptor (s : State) : State :=
  { s with family := .unknown, block := false }

/-! ### The transport (40_transport.md): each is one engine step with what its caller attaches to it -/

/-- The byte the card returns on the next exchange: the environment's, or a FREE VALUE (R10, R131). -/
def cardByte (s : State) : Byte :=
  match s.cardIn with
  | [] => Config.cardByte s.trace
  | b :: _ => b

/-- The state after `xchg(b)`: the event `(CSA, FAST, b, in)` is recorded, and nothing else of the block is written
(R131). The data-out line's level afterwards is a FREE VALUE. -/
def xchg (b : Byte) (s : State) : State :=
  let e : BusEvent := { csa := s.csa, fast := s.fast, out := b, inp := cardByte s }
  { s with trace := e :: s.trace, cardIn := s.cardIn.tail, dout := Config.doutAfter (e :: s.trace) }

/-- `rcv()` = `xchg(0xFF)` (R132); the byte received is `cardByte` of the state before. -/
def rcv (s : State) : State :=
  xchg 0xFF s

/-- `select()` (R133). -/
def select (s : State) : State :=
  { s with csa := true }

/-- `deselect()` (R134): `CSA` falls, then one dummy exchange. -/
def deselect (s : State) : State :=
  rcv { s with csa := false }

/-- `tinit()` (R135): slow mode, deselected, data-out idle high; no exchange. -/
def tinit (s : State) : State :=
  { s with fast := false, csa := false, dout := true }

/-- `set_fast()` (R136). -/
def setFastMode (s : State) : State :=
  { s with fast := true }

/-- The bits of one exchanged byte in the order they are shifted, most significant first (R68 (a), R138). -/
def shiftOrder (b : Byte) : List Bool :=
  [b.getLsbD 7, b.getLsbD 6, b.getLsbD 5, b.getLsbD 4, b.getLsbD 3, b.getLsbD 2, b.getLsbD 1, b.getLsbD 0]

/-- The byte that bits shifted in one after the other leave, the first ending most significant (R68 (a), R138). -/
def shiftIn (bits : List Bool) : Byte :=
  bits.foldl (fun r b => r <<< 1 ||| (BitVec.ofBool b).setWidth 8) 0

/-- The eight clock cycles of one exchange: on each, the next bit of the byte sent goes out and the next bit of the byte
received comes in, both from bit 7 down (R138). -/
def exchangeCycles (e : BusEvent) : List ClockCycle :=
  List.zipWith (fun o i => ⟨e.csa, e.fast, o, i⟩) (shiftOrder e.out) (shiftOrder e.inp)

/-- The bus trace, oldest event first. -/
def busTrace (s : State) : List BusEvent :=
  s.trace.reverse

/-- Everything that crossed the serial lines, bit by bit, oldest first: the block's serial output (R138). -/
def wireCycles (s : State) : List ClockCycle :=
  (busTrace s).flatMap exchangeCycles

/-! ### Reset (70_reset_and_hazards.md) -/

/-- The reset input (R330, R332, R333): every piece of block state takes its reset value, block memory becomes
unspecified, an operation ends without a result. The card, and so what was exchanged with it, is not reached (R331); the
environment's lists go on. -/
def blockReset (s : State) : State :=
  { State.resetOf s.par with
    trace := s.trace
    cardIn := s.cardIn
    moves := s.moves
    draws := s.draws
    epoch := s.epoch + 1 }

end Sys2Proof.Machine
end

