-- ==== Sys2Proof/Machine/Flags.lean ====
section
/-! DEFINITION. Flags and outputs the block computes: `BUSY`, `READY`, `DRAINED`, `IRQ`, the pins, and the classes of a
card response. -/

namespace Sys2Proof.Machine

/-- `STATUS.BUSY`: 1 while an operation runs (R27); the engine is idle exactly when it is 0 (R21). -/
def busy (s : State) : Bool :=
  decide (s.eng ≠ .idle)

/-- `STATUS.READY`: a family is established (R29). -/
def ready (s : State) : Bool :=
  decide (s.family ≠ .unknown)

/-- `ASTAT.DRAINED`: `AREM` = 0 (R35). -/
def drained (s : State) : Bool :=
  decide (s.arem = 0)

/-- The interrupt output `IRQ` = `SWAP` ∧ `IEN` (R246, R310). -/
def irq (s : State) : Bool :=
  s.swap && s.ien

/-- The pulse-width pin: 1 exactly when `PEN` = 1 and `PCNT` < `DUTY` (R245). -/
def pwmPin (s : State) : Bool :=
  s.pen && decide (s.pcnt.toNat < s.duty.toNat)

/-- The chip-select line, active low (R43). -/
def chipSelectLine (s : State) : Bool :=
  !s.csa

/-- The serial clock line. An exchange is eight whole clock cycles from the idle level low (R135, R138), so between
steps the line is always low. -/
def serialClockLine (_s : State) : Bool := false

/-- The source's `is_selected()` (R137). -/
def isSelected (s : State) : Bool :=
  s.csa

/-! ### The classes of a response byte (R101) -/

/-- `valid(r)`: bit 7 clear. -/
def validR1 (r : Byte) : Bool := !r.getLsbD 7

/-- `idle(r)`: exactly 0x01. -/
def idleR1 (r : Byte) : Bool := decide (r = 0x01)

/-- `ready(r)`: exactly 0x00. -/
def readyR1 (r : Byte) : Bool := decide (r = 0x00)

/-- `app_abort(r)`: above 0x01. -/
def appAbort (r : Byte) : Bool := decide (0x01 < r.toNat)

/-- `probe_ok(r)`: at most 0x01. -/
def probeOk (r : Byte) : Bool := decide (r.toNat ≤ 0x01)

/-- The data response says "accepted" (R106). -/
def dataAccepted (d : Byte) : Bool := decide (d.extractLsb' 0 5 = 0b00101#5)

/-- The version-check word echoes the pattern (R102 (a)). -/
def echoOk (w : Word) : Bool :=
  decide (w.extractLsb' 8 8 = 0x01#8 ∧ w.extractLsb' 0 8 = 0xAA#8)

/-- The capacity-status bit of the operating-condition word (R102 (b)). -/
def ccs (w : Word) : Bool := w.getLsbD 30

end Sys2Proof.Machine
end

