-- ==== Sys2Proof/Machine/Operands.lean ====
section
/-! DEFINITION. Operand assembly and the words the registers read as. -/

namespace Sys2Proof.Machine

/-! ### Operands of the engine -/

/-- The card address of a sector (R99, R69): the sector number, or the byte address modulo 2^32. -/
def cardAddress (block : Bool) (sector : Word) : Word :=
  if block then sector else sector <<< 9

/-- The instruction of the operation the latches hold (R92, R94). -/
def launchedInstr (l : Latches) : Instr :=
  decodeOp (0#23 ++ BitVec.ofBool l.den ++ 0#4 ++ l.op) l.arg0 (arg1Word l.off l.cnt) (l.addr.setWidth 32)

/-- The instruction whose step the engine takes next: the card command it is sending, else the operation it runs. -/
def engineInstr (s : State) : Option Instr :=
  match s.eng with
  | .idle => none
  | .cmd _ c _ => some c.instr
  | _ => some (launchedInstr s.latch)

/-- The first address of the active buffer (R61). -/
def activeBase (s : State) : Nat :=
  if s.active then s.par.bufSize else 0

/-! ### The codes of R28 and R29 -/

/-- The code of a result. -/
def Result.code (r : Result) : BitVec 3 :=
  match r with
  | .ok => 0
  | .error => 1
  | .notRdy => 2
  | .parErr => 3

/-- The code of a family. -/
def Family.code (f : Family) : BitVec 2 :=
  match f with
  | .unknown => 0
  | .sdv1 => 1
  | .sdv2 => 2
  | .mmcv3 => 3

/-! ### What each register reads as -/

/-- One bit, as a bit vector. -/
abbrev bit (b : Bool) : BitVec 1 := BitVec.ofBool b

/-- `CMD` (R23). -/
def cmdWord (s : State) : Word :=
  0#23 ++ bit s.cmdDen ++ 0#4 ++ s.cmdOp

/-- `ARG1` (R25). -/
def arg1Reg (s : State) : Word :=
  arg1Word s.argOffset s.argCount

/-- `ADDR` (R26). -/
def addrWord (s : State) : Word :=
  s.addr.setWidth 32

/-- `STATUS` (R27). -/
def statusWord (s : State) : Word :=
  0#20 ++ bit s.lost ++ bit s.csa ++ bit s.fast ++ bit s.wopen ++ bit s.block ++ s.family.code ++ bit (ready s)
    ++ s.result.code ++ bit (busy s)

/-- `WCUR` (R31). -/
def wcurWord (s : State) : Word :=
  s.wcur.setWidth 32

/-- `LASTR1` (R32). -/
def lastR1Word (s : State) : Word :=
  s.lastR1.setWidth 32

/-- `ACTRL` (R34). -/
def actrlWord (s : State) : Word :=
  0#29 ++ bit s.ien ++ bit s.pen ++ bit s.ten

/-- `ASTAT` (R35). -/
def astatWord (s : State) : Word :=
  0#28 ++ bit (drained s) ++ bit s.underrun ++ bit s.swap ++ bit s.active

/-- `ACUR` (R36). -/
def acurWord (s : State) : Word :=
  s.acur.setWidth 32

/-- `TDIV` (R39). -/
def tdivWord (s : State) : Word :=
  s.tdiv.setWidth 32

/-- `DUTY` (R40). -/
def dutyWord (s : State) : Word :=
  s.duty.setWidth 32

/-- `PARAM` (R41). -/
def paramWord (s : State) : Word :=
  (BitVec.ofNat 16 s.par.bufSize).setWidth 32

end Sys2Proof.Machine
end

