-- ==== Sys2Proof/Machine/Audio.lean ====
section
/-! DEFINITION. The audio FIFO's registers, the sample-rate timer, the tick and the pulse-width output
(44_audio_fifo.md). -/

namespace Sys2Proof.Machine

/-! ### `ACTRL` (R241 to R246) -/

/-- The buffer-index reset (R242). -/
def indexReset (s : State) : State :=
  { s with active := false, acur := 0, swap := false, underrun := false }

/-- A store to `ACTRL` (R241): the fields, then the rising edges of `TEN` and `PEN`, then the index reset. While `PEN` = 0
the pulse-width counter holds 0 (R245), so it is 0 after every store that leaves `PEN` = 0 (log entry 11). -/
def writeActrl (v : Word) (s : State) : State :=
  let ten := v.getLsbD 0
  let pen := v.getLsbD 1
  let tenRises := !s.ten && ten
  let penRises := !s.pen && pen
  let s1 : State :=
    { s with
      ten := ten
      pen := pen
      ien := v.getLsbD 2
      tcnt := if tenRises then 0 else s.tcnt
      duty := if penRises then midScale else s.duty
      pcnt := if penRises || !pen then 0 else s.pcnt }
  if v.getLsbD 3 then indexReset s1 else s1

/-- A store to `ACTRL` (R241). -/
def execWrActrl (w : Width) (v : Word) (s : State) : Host.Outcome State Fault Refusal :=
  .next (regWrite w (writeActrl v) s)

/-- A load of `ACTRL` (R34). -/
def execRdActrl (w : Width) (s : State) : Host.Outcome State Fault Refusal :=
  .next (regRead w (actrlWord s) s)

/-! ### `ASTAT` (R247, R248) -/

/-- A load of `ASTAT` (R35). -/
def execRdAstat (w : Width) (s : State) : Host.Outcome State Fault Refusal :=
  .next (regRead w (astatWord s) s)

/-- A store to `ASTAT`: bit 1 clears `SWAP` (R247) and bit 2 clears `UNDERRUN` (R248), each by itself. -/
def writeAstat (v : Word) (s : State) : State :=
  { s with swap := s.swap && !v.getLsbD 1, underrun := s.underrun && !v.getLsbD 2 }

/-- A store to `ASTAT` that is not only an acknowledgement of `UNDERRUN` (R247). -/
def execWrAstatSwap (w : Width) (v : Word) (s : State) : Host.Outcome State Fault Refusal :=
  .next (regWrite w (writeAstat v) s)

/-- A store to `ASTAT` that acknowledges `UNDERRUN` only (R248). -/
def execWrAstatUnderrun (w : Width) (v : Word) (s : State) : Host.Outcome State Fault Refusal :=
  .next (regWrite w (writeAstat v) s)

/-! ### Counters, divisor and duty -/

/-- `ACUR` (R36). -/
def execAcur (acc : Access) (s : State) : Host.Outcome State Fault Refusal :=
  .next (regAccess acc (acurWord s) ignoreWrite s)

/-- A load of `AREM` (R37). -/
def execRdArem (w : Width) (s : State) : Host.Outcome State Fault Refusal :=
  .next (regRead w s.arem s)

/-- A store to `AREM` (R249). -/
def writeArem (v : Word) (s : State) : State :=
  { s with arem := v }

/-- A store to `AREM` (R249). -/
def execWrArem (w : Width) (v : Word) (s : State) : Host.Outcome State Fault Refusal :=
  .next (regWrite w (writeArem v) s)

/-- A store to `AREMADD`: the indivisible add (R250). -/
def addArem (v : Word) (s : State) : State :=
  { s with arem := s.arem + v }

/-- `AREMADD` (R250); it reads 0 (R38). -/
def execAremadd (acc : Access) (s : State) : Host.Outcome State Fault Refusal :=
  .next (regAccess acc 0 addArem s)

/-- A load of `TDIV` (R39). -/
def execRdTdiv (w : Width) (s : State) : Host.Outcome State Fault Refusal :=
  .next (regRead w (tdivWord s) s)

/-- A store to `TDIV` (R251); `TCNT` is not cleared. -/
def writeTdiv (v : Word) (s : State) : State :=
  { s with tdiv := v.extractLsb' 0 16 }

/-- A store to `TDIV` (R251). -/
def execWrTdiv (w : Width) (v : Word) (s : State) : Host.Outcome State Fault Refusal :=
  .next (regWrite w (writeTdiv v) s)

/-- A load of `DUTY` (R40). -/
def execRdDuty (w : Width) (s : State) : Host.Outcome State Fault Refusal :=
  .next (regRead w (dutyWord s) s)

/-- A store to `DUTY` (R253). -/
def writeDuty (v : Word) (s : State) : State :=
  { s with duty := v.extractLsb' 0 8 }

/-- A store to `DUTY` (R253). -/
def execWrDuty (w : Width) (v : Word) (s : State) : Host.Outcome State Fault Refusal :=
  .next (regWrite w (writeDuty v) s)

/-! ### The tick (R252) -/

/-- The active buffer is exhausted (R36). -/
def exhausted (s : State) : Bool :=
  decide (s.acur.toNat = s.par.bufSize)

/-- Switch buffers: `UNDERRUN` records a swap not yet taken, then `SWAP` is set, the cursor restarts and the index flips. -/
def switchBuffers (s : State) : State :=
  { s with underrun := s.underrun || s.swap, swap := true, acur := 0, active := !s.active }

/-- The state whose active buffer the tick emits from. -/
def afterSwitch (s : State) : State :=
  if exhausted s then switchBuffers s else s

/-- The address of the byte the cursor points at (R254). -/
def sampleAddress (s : State) : Nat :=
  activeBase s + s.acur.toNat

/-- Emit one sample: the byte at the cursor goes to `DUTY`, the cursor advances, the count falls. -/
def emit (s : State) : State :=
  { s with duty := memRead s (sampleAddress s), acur := s.acur + 1, arem := s.arem - 1 }

/-- The tick's effect. -/
def tickStep (s : State) : State :=
  if s.arem = 0 then s else emit (afterSwitch s)

/-- TICK (R252). -/
def execTick (s : State) : Host.Outcome State Fault Refusal :=
  .next (tickStep s)

/-! ### The timer and the pulse-width counter -/

/-- The timer expires at this clock (R244). -/
def timerExpires (s : State) : Bool :=
  s.ten && decide (s.tdiv.toNat ≤ s.tcnt.toNat)

/-- A timer clock without a tick (R243, R244). -/
def countTimer (s : State) : State :=
  if s.ten then { s with tcnt := s.tcnt + 1 } else s

/-- The timer restarts; a tick comes with it (R244). -/
def restartTimer (s : State) : State :=
  { s with tcnt := 0 }

/-- A clock of `F_PWM` (R245). -/
def pwmClock (s : State) : State :=
  if s.pen then { s with pcnt := s.pcnt + 1 } else s

end Sys2Proof.Machine
end

