-- ==== Sys2Proof/Machine/Init.lean ====
section
/-! DEFINITION. INIT, the card initialization state machine (42_initialize.md), `close_write` (43_block_io.md R220), and
where a card command's response leads. -/

namespace Sys2Proof.Machine

/-! ### Sending a card command, and bounded retries -/

/-- The position that starts `send_command(c)` for a caller: an application command is sent after its leading command
(R150, R151). -/
def callCommand (k : Caller) (c : CardCmd) : EnginePos :=
  match c with
  | .acmd41 hcs => .cmd (.lead hcs k) .cmd55 .desel
  | .cmd0 => .cmd (.plain k) .cmd0 .desel
  | .cmd8 => .cmd (.plain k) .cmd8 .desel
  | .cmd55 => .cmd (.plain k) .cmd55 .desel
  | .cmd1 => .cmd (.plain k) .cmd1 .desel
  | .cmd58 => .cmd (.plain k) .cmd58 .desel
  | .cmd16 => .cmd (.plain k) .cmd16 .desel
  | .cmd17 a => .cmd (.plain k) (.cmd17 a) .desel
  | .cmd24 a => .cmd (.plain k) (.cmd24 a) .desel

/-- `retry` (R152): after an attempt that failed with `left` attempts still allowed, the next attempt, or the timeout.
The first attempt of a loop of `N` starts with `left = N - 1`; a delay changes no state (R350). -/
def retryNext (left : Nat) (again : Nat → EnginePos) (timeout : EnginePos) : EnginePos :=
  match left with
  | 0 => timeout
  | n + 1 => again n

/-! ### INIT's control flow -/

/-- Where an INIT that established no family goes: step 6 with family Unknown (R190). -/
def initFailed : EnginePos := .initEnd .unknown false

/-- The command of the loop of step 4 for a candidate family (R187). -/
def loopCmd (cand : Family) : CardCmd :=
  match cand with
  | .mmcv3 => .cmd1
  | .sdv1 => .acmd41 false
  | .sdv2 => .acmd41 false
  | .unknown => .acmd41 false

/-- Step 2: an idle-reset attempt answered `r` (R183). -/
def afterIdleReset (left : Nat) (r : Byte) : EnginePos :=
  if idleR1 r then callCommand .initVersion .cmd8
  else retryNext left (fun n => callCommand (.initIdle n) .cmd0) initFailed

/-- Step 3: the version check answered `r` (R184). -/
def afterVersion (r : Byte) : EnginePos :=
  if idleR1 r then .rd4 .echo 3 0
  else callCommand .initProbe (.acmd41 false)

/-- Step 3: the echo word was read (R184, R185). -/
def afterEcho (p : Params) (w : Word) : EnginePos :=
  if echoOk w then callCommand (.initHcs (p.retryInit - 1)) (.acmd41 true)
  else initFailed

/-- Step 3: an attempt of the SD v2 loop answered `r` (R185, R186). -/
def afterHcs (left : Nat) (r : Byte) : EnginePos :=
  if readyR1 r then callCommand .initOcr .cmd58
  else retryNext left (fun n => callCommand (.initHcs n) (.acmd41 true)) initFailed

/-- Step 3: the capacity read answered `r` (R186). -/
def afterCapacity (r : Byte) : EnginePos :=
  if readyR1 r then .rd4 .ocr 3 0
  else initFailed

/-- Step 3: the operating-condition word was read; step 5 follows unless the card is block-addressed (R186, R189). -/
def afterOcr (w : Word) : EnginePos :=
  if ccs w then .initEnd .sdv2 true
  else callCommand (.initBlockLen .sdv2) .cmd16

/-- Step 4: the probe answered `r` (R187). -/
def afterProbe (p : Params) (r : Byte) : EnginePos :=
  let cand : Family := if probeOk r then .sdv1 else .mmcv3
  callCommand (.initLoop cand (p.retryInit - 1)) (loopCmd cand)

/-- Step 4: an attempt of the candidate's loop answered `r` (R188, R189). -/
def afterLoop (cand : Family) (left : Nat) (r : Byte) : EnginePos :=
  if readyR1 r then callCommand (.initBlockLen cand) .cmd16
  else retryNext left (fun n => callCommand (.initLoop cand n) (loopCmd cand)) initFailed

/-- Step 5: the set-block-length answered `r` (R189). -/
def afterBlockLen (fam : Family) (r : Byte) : EnginePos :=
  if readyR1 r then .initEnd fam false
  else initFailed

/-- READ: CMD17 answered `r` (R213, R214). -/
def afterReadCmd (p : Params) (r : Byte) : EnginePos :=
  if readyR1 r then .token (p.retryToken - 1)
  else .desel .error

/-- WRITE open: CMD24 answered `r` (R219). -/
def afterOpenCmd (r : Byte) : EnginePos :=
  if readyR1 r then .gap
  else .desel .error

/-- The caller's next position, given the byte its `send_command` returned. -/
def resume (p : Params) (k : Caller) (r : Byte) : EnginePos :=
  match k with
  | .initIdle left => afterIdleReset left r
  | .initVersion => afterVersion r
  | .initHcs left => afterHcs left r
  | .initOcr => afterCapacity r
  | .initProbe => afterProbe p r
  | .initLoop cand left => afterLoop cand left r
  | .initBlockLen fam => afterBlockLen fam r
  | .read => afterReadCmd p r
  | .writeOpen => afterOpenCmd r

/-- A `send_command` call returned `r`. A leading command's response aborts the application command when it is more than
idle (R151), and is then what the application command's call returns. -/
def returned (p : Params) (ret : Ret) (r : Byte) : EnginePos :=
  match ret with
  | .plain k => resume p k r
  | .lead hcs k => if appAbort r then resume p k r else .cmd (.plain k) (.acmd41 hcs) .desel

/-! ### `close_write` (R220) -/

/-- Where `close_write` starts: padding while the cursor is above 0, else the checksum bytes. -/
def closeStart (k : CloseFor) (s : State) : EnginePos :=
  if s.wcur = 0 then .closeCrc k false else .closePad k

/-- One padding byte 0x00, the cursor falling with it. -/
def closePadStep (k : CloseFor) (s : State) : State :=
  let s1 := { xchg 0x00 s with wcur := s.wcur - 1 }
  goto (closeStart k s1) s1

/-- One of the two checksum bytes 0x00. -/
def closeCrcStep (k : CloseFor) (second : Bool) (s : State) : State :=
  goto (if second then .closeResp k else .closeCrc k true) (xchg 0x00 s)

/-- The data response: the busy wait follows an accepted one only. -/
def closeRespStep (k : CloseFor) (s : State) : State :=
  let d := cardByte s
  goto (if dataAccepted d then .closeBusy k (s.par.retryBusy - 1) else .closeDesel k .error) (rcv s)

/-- One exchange of the busy wait: the first 0xFF ends it (R107). -/
def closeBusyStep (k : CloseFor) (left : Nat) (s : State) : State :=
  let b := cardByte s
  goto (if b = 0xFF then .closeDesel k .ok
    else retryNext left (fun n => .closeBusy k n) (.closeDesel k .error)) (rcv s)

/-- The end of every close: `WOPEN` falls and the card is deselected; INIT goes on with step 1 and discards the result
(R181). -/
def closeDeselStep (k : CloseFor) (r : Result) (s : State) : State :=
  goto (match k with
    | .op => .fin r
    | .init => .initTinit) (deselect { s with wopen := false })

/-! ### INIT's own steps -/

/-- Step 1: `tinit()` (R183). -/
def initTinitStep (s : State) : State :=
  goto .initDesel (tinit s)

/-- Step 1: the deselect. -/
def initDeselStep (s : State) : State :=
  goto (.powerUp (nPwrUp - 1)) (deselect s)

/-- Step 1: one of the `N_PWRUP` dummy exchanges; step 2 follows the last (R183). -/
def powerUpStep (left : Nat) (s : State) : State :=
  goto (match left with
    | 0 => callCommand (.initIdle (s.par.retryIdle - 1)) .cmd0
    | n + 1 => .powerUp n) (rcv s)

/-- `rd4()`: one byte of the word, most significant first; `OCR` is written with the last (R162). -/
def rd4Step (k : WordFor) (left : Nat) (acc : Word) (s : State) : State :=
  let w := acc <<< 8 ||| (cardByte s).setWidth 32
  let s1 := rcv s
  match left with
  | 0 => goto (match k with
    | .echo => afterEcho s.par w
    | .ocr => afterOcr w) { s1 with ocr := w }
  | n + 1 => goto (.rd4 k n w) s1

/-- Step 6: the descriptor is written and the card deselected (R190). -/
def initEndStep (fam : Family) (blk : Bool) (s : State) : State :=
  goto (if fam = .unknown then .fin .notRdy else .setFast)
    (deselect { s with family := fam, block := decide (fam = .sdv2) && blk })

/-- Step 6: fast mode after a family was established (R190). -/
def initSetFastStep (s : State) : State :=
  goto (.fin .ok) (setFastMode s)

/-- The first step of INIT: the descriptor is cleared with it, so that `READY` is 0 for all of INIT's steps (R182, R225;
log entry 17); it begins the close of an open write (step 0, R181), else it is step 1. -/
def initStart (s : State) : State :=
  let s1 := clearDescriptor s
  if s.wopen then
    if s.wcur = 0 then closeCrcStep .init false s1 else closePadStep .init s1
  else initTinitStep s1

/-- One engine step of INIT (R180), at INIT's own positions; at any other there is no step of INIT to take. -/
def initStep (s : State) : State :=
  match s.eng with
  | .launched => initStart s
  | .closePad .init => closePadStep .init s
  | .closeCrc .init second => closeCrcStep .init second s
  | .closeResp .init => closeRespStep .init s
  | .closeBusy .init left => closeBusyStep .init left s
  | .closeDesel .init r => closeDeselStep .init r s
  | .initTinit => initTinitStep s
  | .initDesel => initDeselStep s
  | .powerUp left => powerUpStep left s
  | .rd4 k left acc => rd4Step k left acc s
  | .initEnd fam blk => initEndStep fam blk s
  | .setFast => initSetFastStep s
  | .fin r => finish r s
  | _ => s

/-- INIT (R180). -/
def execInit (s : State) : Host.Outcome State Fault Refusal :=
  .next (initStep s)

end Sys2Proof.Machine
end

