-- ==== Sys2Proof/Machine/BlockIo.lean ====
section
/-! DEFINITION. The launch, READ, the three modes of WRITE, and the reserved operations (43_block_io.md). -/

namespace Sys2Proof.Machine

/-! ### Launch (R210) -/

/-- The latches a launch of the `CMD` word `v` loads (R22). -/
def capture (v : Word) (s : State) : Latches where
  op := v.extractLsb' 0 4
  den := v.getLsbD 8
  arg0 := s.arg0
  off := s.argOffset
  cnt := s.argCount
  addr := s.addr

/-- A store of `v` to `CMD` (R210): dropped with `LOST` set while an operation runs (R30), a launch otherwise. -/
def writeCmd (v : Word) (s : State) : State :=
  if busy s then { s with lost := true }
  else { s with cmdOp := v.extractLsb' 0 4, cmdDen := v.getLsbD 8, latch := capture v s, eng := .launched }

/-! ### READ (R211) -/

/-- A refusal check: the operation ends with `r`, or goes on (R210, R212). -/
def refuseIf (c : Bool) (r : Result) (next : EnginePos) (s : State) : State :=
  if c then finish r s else goto next s

/-- `deselect()` before the operation ends with `r` (R216, R219). -/
def deselStep (r : Result) (s : State) : State :=
  goto (.fin r) (deselect s)

/-- One exchange of the token wait: the first byte that is not 0xFF ends it (R214). -/
def tokenStep (left : Nat) (s : State) : State :=
  let t := cardByte s
  goto (if t = 0xFF then retryNext left .token (.desel .error)
    else if t = 0xFE then .packet 0
    else .desel .error) (rcv s)

/-- Where byte `j` of the packet is stored: only bytes `offset` to `offset + count - 1` are, and only with a destination
(R215). -/
def storeAddress (dest : Option BAddr) (offset count : BitVec 10) (j : Nat) : Option Nat :=
  match dest with
  | none => none
  | some d =>
    if offset.toNat ≤ j ∧ j < offset.toNat + count.toNat then some (d.toNat + (j - offset.toNat)) else none

/-- Store `v` at an address, if there is one. -/
def storeAt (a : Option Nat) (v : Byte) (s : State) : State :=
  match a with
  | none => s
  | some a => memWrite a v s

/-- One exchange of the data phase: byte `j` of the 512 data bytes and 2 checksum bytes (R215). -/
def packetStep (dest : Option BAddr) (offset count : BitVec 10) (j : Nat) (s : State) : State :=
  let b := cardByte s
  goto (if j + 1 < sectorSize + crcBytes then .packet (j + 1) else .desel .ok)
    (storeAt (storeAddress dest offset count j) b (rcv s))

/-- The destination range leaves block memory (R212 (4)). -/
def outsideBmem (p : Params) (dest : Option BAddr) (count : BitVec 10) : Bool :=
  match dest with
  | none => false
  | some d => decide (bmemSize p < d.toNat + count.toNat)

/-- One engine step of READ, into block memory or discarding (R211). -/
def readStep (sector : Word) (offset count : BitVec 10) (dest : Option BAddr) (s : State) : State :=
  match s.eng with
  | .launched => refuseIf (!ready s) .notRdy .readCheckOpen s
  | .readCheckOpen => refuseIf s.wopen .parErr .readCheckSum s
  | .readCheckSum => refuseIf (decide (sectorSize < offset.toNat + count.toNat)) .parErr .readCheckRange s
  | .readCheckRange =>
    refuseIf (outsideBmem s.par dest count) .parErr (callCommand .read (.cmd17 (cardAddress s.block sector))) s
  | .token left => tokenStep left s
  | .packet j => packetStep dest offset count j s
  | .desel r => deselStep r s
  | .fin r => finish r s
  | _ => s

/-- READ into block memory (R211). -/
def execRead (sector : Word) (offset count : BitVec 10) (dest : BAddr) (s : State) :
    Host.Outcome State Fault Refusal :=
  .next (readStep sector offset count (some dest) s)

/-- READ and discard (R211 with `DEN` = 0). -/
def execReadSkip (sector : Word) (offset count : BitVec 10) (s : State) : Host.Outcome State Fault Refusal :=
  .next (readStep sector offset count none s)

/-! ### WRITE data (R218) -/

/-- `n` = min(`LARG0`, `WCUR`). -/
def sendCount (count : Word) (s : State) : Nat :=
  min count.toNat s.wcur.toNat

/-- The range check, and the first byte unless there is none to send. -/
def writeDataStart (count : Word) (source : BAddr) (s : State) : State :=
  let n := sendCount count s
  refuseIf (decide (bmemSize s.par < source.toNat + n)) .parErr (if n = 0 then .fin .ok else .sendData 0 n) s

/-- Send byte `i` of `n`, the cursor falling with it. -/
def sendDataStep (source : BAddr) (i n : Nat) (s : State) : State :=
  goto (if i + 1 < n then .sendData (i + 1) n else .fin .ok)
    { xchg (memRead s (source.toNat + i)) s with wcur := s.wcur - 1 }

/-- One engine step of WRITE data (R218). -/
def writeDataStep (count : Word) (source : BAddr) (s : State) : State :=
  match s.eng with
  | .launched => writeDataStart count source s
  | .sendData i n => sendDataStep source i n s
  | .fin r => finish r s
  | _ => s

/-- WRITE data (R218). -/
def execWriteData (count : Word) (source : BAddr) (s : State) : Host.Outcome State Fault Refusal :=
  .next (writeDataStep count source s)

/-! ### WRITE open (R219) -/

/-- The data-start token; the stream is open from this step on. -/
def openTokenStep (s : State) : State :=
  goto (.fin .ok) { xchg 0xFE s with wcur := 512, wopen := true }

/-- One engine step of WRITE open (R219). -/
def writeOpenStep (sector : Word) (s : State) : State :=
  match s.eng with
  | .launched => refuseIf (!ready s) .notRdy .openCheck s
  | .openCheck => refuseIf s.wopen .parErr (callCommand .writeOpen (.cmd24 (cardAddress s.block sector))) s
  | .gap => goto .openToken (xchg 0xFF s)
  | .openToken => openTokenStep s
  | .desel r => deselStep r s
  | .fin r => finish r s
  | _ => s

/-- WRITE open (R219). -/
def execWriteOpen (sector : Word) (s : State) : Host.Outcome State Fault Refusal :=
  .next (writeOpenStep sector s)

/-! ### WRITE close (R220) -/

/-- One engine step of WRITE close (R220). -/
def writeCloseStep (s : State) : State :=
  match s.eng with
  | .launched => refuseIf (!s.wopen) .parErr (closeStart .op s) s
  | .closePad .op => closePadStep .op s
  | .closeCrc .op second => closeCrcStep .op second s
  | .closeResp .op => closeRespStep .op s
  | .closeBusy .op left => closeBusyStep .op left s
  | .closeDesel .op r => closeDeselStep .op r s
  | .fin r => finish r s
  | _ => s

/-- WRITE close (R220). -/
def execWriteClose (s : State) : Host.Outcome State Fault Refusal :=
  .next (writeCloseStep s)

/-! ### Reserved operations (R224) -/

/-- A reserved operation ends at its first step with PARERR. -/
def reservedStep (s : State) : State :=
  match s.eng with
  | .launched => finish .parErr s
  | .fin r => finish r s
  | _ => s

/-- `OP` = 0x0. -/
def execReservedOp0 (s : State) : Host.Outcome State Fault Refusal :=
  .next (reservedStep s)

/-- `OP` = 0x4 to 0x7. -/
def execReservedOp47 (_lo : BitVec 2) (s : State) : Host.Outcome State Fault Refusal :=
  .next (reservedStep s)

/-- `OP` = 0x8 to 0xF. -/
def execReservedOp8F (_lo : BitVec 3) (s : State) : Host.Outcome State Fault Refusal :=
  .next (reservedStep s)

end Sys2Proof.Machine
end

