-- ==== Sys2Proof/Machine/CardCommands.lean ====
section
/-! DEFINITION. `send_command` and the nine card commands (41_card_commands.md). -/

namespace Sys2Proof.Machine

/-- One poll exchange: the response is valid, or the poll is exhausted, or another exchange follows (R150). `LASTR1` is
written with the byte the call returns, at its end (R163). -/
def pollStep (ret : Ret) (c : CardCmd) (left : Nat) (s : State) : State :=
  let r := cardByte s
  let done := goto (returned s.par ret r) { rcv s with lastR1 := r }
  if validR1 r then done
  else
    match left with
    | 0 => done
    | n + 1 => goto (.cmd ret c (.poll n)) (rcv s)

/-- Frame byte `k`; the poll follows the trailer (R95, R150). -/
def frameByteStep (ret : Ret) (c : CardCmd) (k : Nat) (s : State) : State :=
  goto (if k < 5 then .cmd ret c (.byte (k + 1)) else .cmd ret c (.poll (pollR1 - 1))) (xchg (c.frameByte k) s)

/-- One engine step of `send_command(c)` (R150). -/
def sendStep (ret : Ret) (c : CardCmd) (ph : CmdPhase) (s : State) : State :=
  match ph with
  | .desel => goto (.cmd ret c .sel) (deselect s)
  | .sel => goto (.cmd ret c .flush) (select s)
  | .flush => goto (.cmd ret c (.byte 0)) (rcv s)
  | .byte k => frameByteStep ret c k s
  | .poll left => pollStep ret c left s

/-- The engine's next step of sending `c`, where it is sending `c`; elsewhere there is no step of it to take. -/
def cardCommandStep (c : CardCmd) (s : State) : State :=
  match s.eng with
  | .cmd ret c' ph => if c' = c then sendStep ret c ph s else s
  | _ => s

/-- CMD0, "idle-reset" (R153). -/
def execCmd0 (s : State) : Host.Outcome State Fault Refusal :=
  .next (cardCommandStep .cmd0 s)

/-- CMD8, the version check (R154). -/
def execCmd8 (s : State) : Host.Outcome State Fault Refusal :=
  .next (cardCommandStep .cmd8 s)

/-- CMD55, the leading command (R155). -/
def execCmd55 (s : State) : Host.Outcome State Fault Refusal :=
  .next (cardCommandStep .cmd55 s)

/-- ACMD41, the application-specific init command (R156): its own frame; the leading CMD55 before it is `callCommand`'s
(R151). -/
def execAcmd41 (hcs : Bool) (s : State) : Host.Outcome State Fault Refusal :=
  .next (cardCommandStep (.acmd41 hcs) s)

/-- CMD1, the legacy init command (R157). -/
def execCmd1 (s : State) : Host.Outcome State Fault Refusal :=
  .next (cardCommandStep .cmd1 s)

/-- CMD58, read operating conditions (R158). -/
def execCmd58 (s : State) : Host.Outcome State Fault Refusal :=
  .next (cardCommandStep .cmd58 s)

/-- CMD16, set block length (R159). -/
def execCmd16 (s : State) : Host.Outcome State Fault Refusal :=
  .next (cardCommandStep .cmd16 s)

/-- CMD17, single-block read (R160). -/
def execCmd17 (a : Word) (s : State) : Host.Outcome State Fault Refusal :=
  .next (cardCommandStep (.cmd17 a) s)

/-- CMD24, single-block write (R161). -/
def execCmd24 (a : Word) (s : State) : Host.Outcome State Fault Refusal :=
  .next (cardCommandStep (.cmd24 a) s)

end Sys2Proof.Machine
end

