-- ==== Sys2Proof/Machine/Registers.lean ====
section
/-! DEFINITION. The host's accesses to the engine's registers, the reserved and unmapped offsets, and the block-memory
window (10_state.md, 20_memory.md). -/

namespace Sys2Proof.Machine

/-! ### The engine's registers -/

/-- A store to `CMD` (R210). -/
def execWrCmd (w : Width) (v : Word) (s : State) : Host.Outcome State Fault Refusal :=
  .next (regWrite w (writeCmd v) s)

/-- A load of `CMD` (R23). -/
def execRdCmd (w : Width) (s : State) : Host.Outcome State Fault Refusal :=
  .next (regRead w (cmdWord s) s)

/-- A store to `ARG0` (R24). -/
def writeArg0 (v : Word) (s : State) : State :=
  { s with arg0 := v }

/-- `ARG0` (R24). -/
def execArg0 (acc : Access) (s : State) : Host.Outcome State Fault Refusal :=
  .next (regAccess acc s.arg0 writeArg0 s)

/-- A store to `ARG1` (R25). -/
def writeArg1 (v : Word) (s : State) : State :=
  { s with argOffset := v.extractLsb' 0 10, argCount := v.extractLsb' 16 10 }

/-- `ARG1` (R25). -/
def execArg1 (acc : Access) (s : State) : Host.Outcome State Fault Refusal :=
  .next (regAccess acc (arg1Reg s) writeArg1 s)

/-- A store to `ADDR` (R26). -/
def writeAddr (v : Word) (s : State) : State :=
  { s with addr := v.extractLsb' 0 16 }

/-- `ADDR` (R26). -/
def execAddr (acc : Access) (s : State) : Host.Outcome State Fault Refusal :=
  .next (regAccess acc (addrWord s) writeAddr s)

/-- A load of `STATUS` (R27). -/
def execRdStatus (w : Width) (s : State) : Host.Outcome State Fault Refusal :=
  .next (regRead w (statusWord s) s)

/-- A store to `STATUS`: bit 11 clears `LOST` (R30). -/
def writeStatus (v : Word) (s : State) : State :=
  { s with lost := s.lost && !v.getLsbD 11 }

/-- A store to `STATUS` (R30). -/
def execWrStatus (w : Width) (v : Word) (s : State) : Host.Outcome State Fault Refusal :=
  .next (regWrite w (writeStatus v) s)

/-- `WCUR` (R31). -/
def execWcur (acc : Access) (s : State) : Host.Outcome State Fault Refusal :=
  .next (regAccess acc (wcurWord s) ignoreWrite s)

/-- `LASTR1` (R32). -/
def execLastr1 (acc : Access) (s : State) : Host.Outcome State Fault Refusal :=
  .next (regAccess acc (lastR1Word s) ignoreWrite s)

/-- `OCR` (R33). -/
def execOcr (acc : Access) (s : State) : Host.Outcome State Fault Refusal :=
  .next (regAccess acc s.ocr ignoreWrite s)

/-- `PARAM` (R41). -/
def execParam (acc : Access) (s : State) : Host.Outcome State Fault Refusal :=
  .next (regAccess acc (paramWord s) ignoreWrite s)

/-! ### Reserved and unmapped offsets -/

/-- An aligned 32-bit access to a reserved offset reads 0 and ignores writes; any other is a bus error (R42, R65). -/
def reservedOffset (low : Nat) (acc : Access) (s : State) : State :=
  if low % 4 = 0 then regAccess acc 0 ignoreWrite s else busError s

/-- Offsets 0x40 to 0x7C (R42). -/
def execReserved407C (lo : BitVec 6) (acc : Access) (s : State) : Host.Outcome State Fault Refusal :=
  .next (reservedOffset lo.toNat acc s)

/-- Offsets 0x80 to 0xFC (R42). -/
def execReserved80FC (lo : BitVec 7) (acc : Access) (s : State) : Host.Outcome State Fault Refusal :=
  .next (reservedOffset lo.toNat acc s)

/-- Every access to an unmapped offset is a bus error (R63, R65). -/
def unmapped (_acc : Access) (s : State) : State :=
  busError s

/-- Offsets 0x100 to 0x1FF (R65). -/
def execUnmapped100 (_lo : BitVec 8) (acc : Access) (s : State) : Host.Outcome State Fault Refusal :=
  .next (unmapped acc s)

/-- Offsets 0x200 to 0x3FF (R65). -/
def execUnmapped200 (_lo : BitVec 9) (acc : Access) (s : State) : Host.Outcome State Fault Refusal :=
  .next (unmapped acc s)

/-- Offsets 0x400 to 0x7FF (R65). -/
def execUnmapped400 (_lo : BitVec 10) (acc : Access) (s : State) : Host.Outcome State Fault Refusal :=
  .next (unmapped acc s)

/-- Offsets 0x800 to 0xFFF (R65). -/
def execUnmapped800 (_lo : BitVec 11) (acc : Access) (s : State) : Host.Outcome State Fault Refusal :=
  .next (unmapped acc s)

/-- Offsets 0x1000 to 0x1FFF (R65). -/
def execUnmapped1000 (_lo : BitVec 12) (acc : Access) (s : State) : Host.Outcome State Fault Refusal :=
  .next (unmapped acc s)

/-- Offsets 0x2000 to 0x3FFF (R65). -/
def execUnmapped2000 (_lo : BitVec 13) (acc : Access) (s : State) : Host.Outcome State Fault Refusal :=
  .next (unmapped acc s)

/-- Offsets 0x4000 to 0x7FFF (R65). -/
def execUnmapped4000 (_lo : BitVec 14) (acc : Access) (s : State) : Host.Outcome State Fault Refusal :=
  .next (unmapped acc s)

/-- Offsets 0x8000 to 0xFFFF (R65). -/
def execUnmapped8000 (_lo : BitVec 15) (acc : Access) (s : State) : Host.Outcome State Fault Refusal :=
  .next (unmapped acc s)

/-! ### The block-memory window -/

/-- The window accepts an access of this width at this block-memory address (R63, R64). -/
def windowAccepts (p : Params) (w : Width) (a : Nat) : Bool :=
  match w with
  | .w8 => decide (a + 1 ≤ bmemSize p)
  | .w32 => decide (a % 4 = 0 ∧ a + 4 ≤ bmemSize p)
  | .w16 => false
  | .w64 => false

/-- The value an accepted load returns: a byte, or a little-endian word (R68 (d), R111). -/
def windowRead (w : Width) (a : Nat) (s : State) : Word :=
  match w with
  | .w8 => (memRead s a).setWidth 32
  | .w16 => memReadWord s a
  | .w32 => memReadWord s a
  | .w64 => memReadWord s a

/-- What an accepted store does: it writes a byte, or a little-endian word (R68 (d), R111). -/
def windowWrite (w : Width) (a : Nat) (v : Word) (s : State) : State :=
  match w with
  | .w8 => memWrite a (v.extractLsb' 0 8) s
  | .w16 => memWriteWord a v s
  | .w32 => memWriteWord a v s
  | .w64 => memWriteWord a v s

/-- A host access to the block-memory window; one that is not accepted is a bus error (R64, R65). -/
def windowAccess (a : Nat) (acc : Access) (s : State) : State :=
  match acc with
  | .read w => if windowAccepts s.par w a then respond (.data (windowRead w a s)) s else busError s
  | .write w v => if windowAccepts s.par w a then respond .done (windowWrite w a v s) else busError s

/-- The block-memory window (R63). -/
def execBmem (a : BAddr) (acc : Access) (s : State) : Host.Outcome State Fault Refusal :=
  .next (windowAccess a.toNat acc s)

end Sys2Proof.Machine
end

