-- ==== Sys2Proof/Machine/Dispatch.lean ====
section
/-! DEFINITION. One arm per instruction. -/

namespace Sys2Proof.Machine

/-- The meaning of each instruction. -/
def exec (i : Instr) (s : State) : Host.Outcome State Fault Refusal :=
  match i with
  | .init => Sys2Proof.Machine.execInit s
  | .read sector offset count dest => Sys2Proof.Machine.execRead sector offset count dest s
  | .readSkip sector offset count => Sys2Proof.Machine.execReadSkip sector offset count s
  | .writeData count source => Sys2Proof.Machine.execWriteData count source s
  | .writeOpen sector => Sys2Proof.Machine.execWriteOpen sector s
  | .writeClose => Sys2Proof.Machine.execWriteClose s
  | .reservedOp0 => Sys2Proof.Machine.execReservedOp0 s
  | .reservedOp47 lo => Sys2Proof.Machine.execReservedOp47 lo s
  | .reservedOp8F lo => Sys2Proof.Machine.execReservedOp8F lo s
  | .wrCmd w v => Sys2Proof.Machine.execWrCmd w v s
  | .rdCmd w => Sys2Proof.Machine.execRdCmd w s
  | .arg0 acc => Sys2Proof.Machine.execArg0 acc s
  | .arg1 acc => Sys2Proof.Machine.execArg1 acc s
  | .addr acc => Sys2Proof.Machine.execAddr acc s
  | .rdStatus w => Sys2Proof.Machine.execRdStatus w s
  | .wrStatus w v => Sys2Proof.Machine.execWrStatus w v s
  | .wcur acc => Sys2Proof.Machine.execWcur acc s
  | .lastr1 acc => Sys2Proof.Machine.execLastr1 acc s
  | .ocr acc => Sys2Proof.Machine.execOcr acc s
  | .rdActrl w => Sys2Proof.Machine.execRdActrl w s
  | .wrActrl w v => Sys2Proof.Machine.execWrActrl w v s
  | .rdAstat w => Sys2Proof.Machine.execRdAstat w s
  | .wrAstatSwap w v => Sys2Proof.Machine.execWrAstatSwap w v s
  | .wrAstatUnderrun w v => Sys2Proof.Machine.execWrAstatUnderrun w v s
  | .acur acc => Sys2Proof.Machine.execAcur acc s
  | .rdArem w => Sys2Proof.Machine.execRdArem w s
  | .wrArem w v => Sys2Proof.Machine.execWrArem w v s
  | .aremadd acc => Sys2Proof.Machine.execAremadd acc s
  | .rdTdiv w => Sys2Proof.Machine.execRdTdiv w s
  | .wrTdiv w v => Sys2Proof.Machine.execWrTdiv w v s
  | .rdDuty w => Sys2Proof.Machine.execRdDuty w s
  | .wrDuty w v => Sys2Proof.Machine.execWrDuty w v s
  | .param acc => Sys2Proof.Machine.execParam acc s
  | .reserved407C lo acc => Sys2Proof.Machine.execReserved407C lo acc s
  | .reserved80FC lo acc => Sys2Proof.Machine.execReserved80FC lo acc s
  | .unmapped100 lo acc => Sys2Proof.Machine.execUnmapped100 lo acc s
  | .unmapped200 lo acc => Sys2Proof.Machine.execUnmapped200 lo acc s
  | .unmapped400 lo acc => Sys2Proof.Machine.execUnmapped400 lo acc s
  | .unmapped800 lo acc => Sys2Proof.Machine.execUnmapped800 lo acc s
  | .unmapped1000 lo acc => Sys2Proof.Machine.execUnmapped1000 lo acc s
  | .unmapped2000 lo acc => Sys2Proof.Machine.execUnmapped2000 lo acc s
  | .unmapped4000 lo acc => Sys2Proof.Machine.execUnmapped4000 lo acc s
  | .unmapped8000 lo acc => Sys2Proof.Machine.execUnmapped8000 lo acc s
  | .bmem a acc => Sys2Proof.Machine.execBmem a acc s
  | .tick => Sys2Proof.Machine.execTick s
  | .cmd0 => Sys2Proof.Machine.execCmd0 s
  | .cmd8 => Sys2Proof.Machine.execCmd8 s
  | .cmd55 => Sys2Proof.Machine.execCmd55 s
  | .acmd41 hcs => Sys2Proof.Machine.execAcmd41 hcs s
  | .cmd1 => Sys2Proof.Machine.execCmd1 s
  | .cmd58 => Sys2Proof.Machine.execCmd58 s
  | .cmd16 => Sys2Proof.Machine.execCmd16 s
  | .cmd17 a => Sys2Proof.Machine.execCmd17 a s
  | .cmd24 a => Sys2Proof.Machine.execCmd24 a s

end Sys2Proof.Machine
end

