-- ==== Sys2Proof/Machine/Step.lean ====
section
/-! DEFINITION. One step of the machine: one move of its environment or of one of its agents (20_memory.md R71). -/

namespace Sys2Proof.Machine

/-! ### The agents' moves -/

/-- A host access: the instruction its offset names, or a bus error where it names none (R65). -/
def hostMove (r : HostReq) (s : State) : Host.Outcome State Fault Refusal :=
  match decode (.access r) with
  | .ok i => exec i s
  | .error _ => .next (busError s)

/-- An engine step: the instruction the engine is at. An idle engine takes none (R21, R322). -/
def engineMove (s : State) : Host.Outcome State Fault Refusal :=
  match engineInstr s with
  | some i => exec i s
  | none => .next s

/-- A clock of `F_TCLK`: at an expiry the timer restarts and a tick occurs (R244). -/
def timerMove (s : State) : Host.Outcome State Fault Refusal :=
  if timerExpires s then exec .tick (restartTimer s) else .next (countTimer s)

/-- One move. -/
def moveStep (m : Move) (s : State) : Host.Outcome State Fault Refusal :=
  match m with
  | .host r => hostMove r s
  | .engine => engineMove s
  | .tclk => timerMove s
  | .pclk => .next (pwmClock s)
  | .reset => .next (blockReset s)

/-- The move that is next: the environment's, or a FREE VALUE when it lists none. -/
def nextMove (s : State) : Move :=
  match s.moves with
  | [] => Config.freeMove s.draws
  | m :: _ => m

/-- The state with the next move taken from it. -/
def takeMove (s : State) : State :=
  match s.moves with
  | [] => { s with draws := s.draws + 1 }
  | _ :: rest => { s with moves := rest }

/-- One step. -/
def step (s : State) : Host.Outcome State Fault Refusal :=
  moveStep (nextMove s) (takeMove s)

/-- The moves of one block clock cycle, in the order the hardware takes them: host access, tick, engine step (R72). R72
orders ticks only. DESIGN CHOICE (log entry 12): every clock of `F_TCLK` stands at the tick's place, so one that only counts
also comes after the host access and sees the `TEN` or `TDIV` it writes; and the pulse-width clock, which R72 does not name,
comes last. -/
def cycleMoves (host : Option HostReq) (tclk engine pclk : Bool) : List Move :=
  (match host with
    | some r => [.host r]
    | none => [])
    ++ (if tclk then [.tclk] else [])
    ++ (if engine then [.engine] else [])
    ++ (if pclk then [.pclk] else [])

/-! ### Placing a word of the opcode table where the next step runs it -/

/-- The latches of an operation word (R22, R91, R94). -/
def latchesOf (cmd arg0 arg1 addr : Word) : Latches where
  op := cmd.extractLsb' 0 4
  den := cmd.getLsbD 8
  arg0 := arg0
  off := arg1.extractLsb' 0 10
  cnt := arg1.extractLsb' 16 10
  addr := addr.extractLsb' 0 16

/-- The operation whose rule sends a card command, as a `CMD` word (R97). -/
def operationOf (c : CardCmd) : Word :=
  match c with
  | .cmd0 => 0x00000001
  | .cmd8 => 0x00000001
  | .cmd55 => 0x00000001
  | .acmd41 _ => 0x00000001
  | .cmd1 => 0x00000001
  | .cmd58 => 0x00000001
  | .cmd16 => 0x00000001
  | .cmd17 _ => 0x00000002
  | .cmd24 _ => 0x00000003

/-- A place that sends a card command, on its loop's last attempt (R180, R211, R219). -/
def callPlace (c : CardCmd) : Ret :=
  match c with
  | .cmd0 => .plain (.initIdle 0)
  | .cmd8 => .plain .initVersion
  | .cmd55 => .lead false .initProbe
  | .acmd41 hcs => if hcs then .plain (.initHcs 0) else .plain .initProbe
  | .cmd1 => .plain (.initLoop .mmcv3 0)
  | .cmd58 => .plain .initOcr
  | .cmd16 => .plain (.initBlockLen .sdv1)
  | .cmd17 _ => .plain .read
  | .cmd24 _ => .plain .writeOpen

/-- Put the engine at the first step of sending a card command, inside the operation that sends it, and let it move. -/
def State.withCommand (s : State) (c : CardCmd) : State :=
  { s with
    latch := latchesOf (operationOf c) 1 0 0
    eng := .cmd (callPlace c) c .desel
    moves := .engine :: s.moves }

/-- `s` with a raw form placed so that the next step runs it: a host access as the host's next move; an operation as just
launched and the engine's move; the timer at its expiry and its clock; a frame with the engine about to send it. -/
def State.withFetched (s : State) (f : Fetched) : State :=
  match f with
  | .access r => { s with moves := .host r :: s.moves }
  | .op cmd arg0 arg1 addr =>
    { s with latch := latchesOf cmd arg0 arg1 addr, eng := .launched, moves := .engine :: s.moves }
  | .event => { s with ten := true, tcnt := s.tdiv, moves := .tclk :: s.moves }
  | .frame bytes =>
    match decodeFrame bytes with
    | .ok .cmd0 => s.withCommand .cmd0
    | .ok .cmd8 => s.withCommand .cmd8
    | .ok .cmd55 => s.withCommand .cmd55
    | .ok (.acmd41 hcs) => s.withCommand (.acmd41 hcs)
    | .ok .cmd1 => s.withCommand .cmd1
    | .ok .cmd58 => s.withCommand .cmd58
    | .ok .cmd16 => s.withCommand .cmd16
    | .ok (.cmd17 a) => s.withCommand (.cmd17 a)
    | .ok (.cmd24 a) => s.withCommand (.cmd24 a)
    | _ => s

/-- `s` with a word of the opcode table placed so that the next step runs its instruction. -/
def State.withFetchWord (s : State) (nbits w : Nat) : State :=
  s.withFetched (tableForm nbits w)

end Sys2Proof.Machine
end

