-- ==== Sys2Proof/Machine/HostContract.lean ====
section
/-! DEFINITION. The host's side, which the block does not check (45_host_contract.md, 30_encoding.md R111, R112): the WAV
header check, the timer divisor, the pseudo-instructions, and the streaming sequence as a reference host. -/

namespace Sys2Proof.Machine

/-! ### Host accesses (R63, R111) -/

/-- The block's offset of a host address, for a block at `base`: what lies outside the 128 KiB is the platform's (R63). -/
def hostOffset (base address : Nat) : Option Offset :=
  if base ≤ address ∧ address < base + 2 ^ 17 then some (BitVec.ofNat 17 (address - base)) else none

/-- The host access `wr OFF, V`. -/
def wr (off : Nat) (v : Word) : HostReq :=
  { offset := BitVec.ofNat 17 off, acc := .write .w32 v }

/-- `rd OFF`. -/
def rd (off : Nat) : HostReq :=
  { offset := BitVec.ofNat 17 off, acc := .read .w32 }

/-- `wrb A, V`. -/
def wrb (a : Nat) (v : Byte) : HostReq :=
  { offset := BitVec.ofNat 17 (0x10000 + a), acc := .write .w8 (v.setWidth 32) }

/-- `rdb A`. -/
def rdb (a : Nat) : HostReq :=
  { offset := BitVec.ofNat 17 (0x10000 + a), acc := .read .w8 }

/-- `wrw A, V`. -/
def wrw (a : Nat) (v : Word) : HostReq :=
  { offset := BitVec.ofNat 17 (0x10000 + a), acc := .write .w32 v }

/-- `rdw A`. -/
def rdw (a : Nat) : HostReq :=
  { offset := BitVec.ofNat 17 (0x10000 + a), acc := .read .w32 }

/-- One line of a host program: an access, or one of the two pseudo-instructions that use what they read (R112). -/
inductive HostLine where
  | access (r : HostReq)
  /-- `poll OFF, M, V`. -/
  | poll (off : Nat) (mask value : Word)
  /-- `result -> r`. -/
  | result
  deriving DecidableEq, Repr

/-- A poll ends when the register read satisfies `(t & M) = V` (R112). -/
def pollEnds (mask value t : Word) : Bool :=
  decide (t &&& mask = value)

/-! ### Pseudo-instructions (R112) -/

/-- `wait_idle`. -/
def waitIdle : HostLine := .poll 0x10 0x1 0x0

/-- `op_init`. -/
def opInit : List HostLine :=
  [.access (wr 0x00 0x00000001), waitIdle]

/-- `op_read S, O, N, A`. -/
def opRead (sector : Word) (offset count : BitVec 10) (a : BAddr) : List HostLine :=
  [.access (wr 0x04 sector), .access (wr 0x08 (arg1Word offset count)), .access (wr 0x0C (a.setWidth 32)),
    .access (wr 0x00 0x00000102), waitIdle]

/-- `op_skip S, O, N`. -/
def opSkip (sector : Word) (offset count : BitVec 10) : List HostLine :=
  [.access (wr 0x04 sector), .access (wr 0x08 (arg1Word offset count)), .access (wr 0x00 0x00000002), waitIdle]

/-- `op_wopen S`, for S ≠ 0: with S = 0 the words are those of `op_wclose`. -/
def opWopen (sector : Word) : List HostLine :=
  [.access (wr 0x04 sector), .access (wr 0x00 0x00000003), waitIdle]

/-- `op_wdata A, N`. -/
def opWdata (a : BAddr) (n : Word) : List HostLine :=
  [.access (wr 0x04 n), .access (wr 0x0C (a.setWidth 32)), .access (wr 0x00 0x00000103), waitIdle]

/-- `op_wclose`. -/
def opWclose : List HostLine :=
  [.access (wr 0x04 0), .access (wr 0x00 0x00000003), waitIdle]

/-- The field `t[3:1]` of a `STATUS` word. -/
def resultField (t : Word) : BitVec 3 := t.extractLsb' 1 3

/-- `ack_swap`. -/
def ackSwap : HostReq := wr 0x24 0x00000002

/-- `ack_underrun`. -/
def ackUnderrun : HostReq := wr 0x24 0x00000004

/-- `ack_lost`. -/
def ackLost : HostReq := wr 0x10 0x00000800

/-- `rem_add N`. -/
def remAdd (n : Word) : HostReq := wr 0x30 n

/-- `audio_reset`. -/
def audioReset : HostReq := wr 0x20 0x00000008

/-- `audio_start`: output and interrupt on, then the timer (R288, R347). -/
def audioStart : List HostReq := [wr 0x20 0x00000006, wr 0x20 0x00000007]

/-- `audio_stop`. -/
def audioStop : HostReq := wr 0x20 0x00000000

/-! ### Running a host program (R111, R112) -/

/-- The access a line makes: a poll and `result` read their register. -/
def HostLine.req (l : HostLine) : HostReq :=
  match l with
  | .access r => r
  | .poll off _ _ => rd off
  | .result => rd 0x10

/-- The value an answer holds; a store and a bus error give none. -/
def HostResp.value (a : HostResp) : Option Word :=
  match a with
  | .data v => some v
  | .none => Option.none
  | .done => Option.none
  | .busError => Option.none

/-- The line is to be repeated: a poll, until the value it read satisfies it (R112). One whose read is
a bus error has read no value (R65), and goes on (DEDUCED, log entry 27). -/
def HostLine.repeats (l : HostLine) (a : HostResp) : Bool :=
  match l with
  | .access _ => false
  | .poll _ mask value => !a.value.any (pollEnds mask value)
  | .result => false

/-- What the line assigns to the program's variable: a load its value, `result` the field of the status word (R111, R112). -/
def HostLine.assigns (l : HostLine) (a : HostResp) : Option Word :=
  match l with
  | .access _ => a.value
  | .poll _ _ _ => none
  | .result => a.value.map (fun t => (resultField t).setWidth 32)

/-- The block and a host program beside it: the lines still to run, and the values assigned so far, oldest first. -/
structure HostRun where
  s : State
  lines : List HostLine
  values : List Word
  deriving DecidableEq, Repr

/-- The state of an outcome that is a next state, else the state before. -/
def outcomeState (s : State) (o : Host.Outcome State Fault Refusal) : State :=
  match o with
  | .next t => t
  | .fault _ => s
  | .refused _ => s

/-- The program's next access; a program that has ended makes none. DESIGN CHOICE (log entry 27): a plain line whose access is
a bus error assigns nothing, and the program goes on with the next line; R65 and R308 leave what the host does to the host. -/
def HostRun.host (p : HostRun) : HostRun :=
  match p.lines with
  | [] => p
  | l :: rest =>
    let t := outcomeState p.s (hostMove l.req p.s)
    { s := t, lines := if l.repeats t.resp then l :: rest else rest, values := p.values ++ (l.assigns t.resp).toList }

/-- A move of another agent beside the program. -/
def HostRun.other (m : Move) (p : HostRun) : HostRun :=
  { p with s := outcomeState p.s (moveStep m p.s) }

/-- An interleaving (R71): the program's next access at each `none`, another agent's move at each `some`. -/
def HostRun.run (ms : List (Option Move)) (p : HostRun) : HostRun :=
  match ms with
  | [] => p
  | none :: rest => HostRun.run rest p.host
  | some m :: rest => HostRun.run rest (p.other m)

/-! ### The filesystem's calls (R290) -/

/-- One part of a filesystem call. Which sector it reads, and where in it, is the filesystem's (R290). -/
inductive FsPiece where
  /-- A READ operation for `count` bytes from byte `offset` of a sector. -/
  | read (sector : Word) (offset count : Nat)
  /-- A byte the host copies itself, standing in for a READ (program P3 of 95_test_vectors.md). -/
  | copy (b : Byte)
  deriving DecidableEq, Repr

/-- The filesystem's part in a call: its pieces, and whether it reports an error of its own. -/
structure FsCall where
  pieces : List FsPiece
  error : Bool
  deriving DecidableEq, Repr, Inhabited

/-- A call that runs: its target (`none` for `fs_skip`), how many bytes it wants and has, what it has still to do, whether it
has failed, and the lines left of its current piece with the bytes that piece brings. -/
structure FsRun where
  target : Option Nat
  want : Nat
  done : Nat
  pieces : List FsPiece
  error : Bool
  lines : List HostLine
  count : Nat
  deriving DecidableEq, Repr

/-- `OFFSET` of a READ the filesystem issues. -/
def pieceOffset (offset : Nat) : Nat := min offset sectorSize

/-- `COUNT` of a READ the filesystem issues: no more than the call still wants, and `OFFSET + COUNT` ≤ 512 (R290). -/
def pieceCount (offset count left : Nat) : Nat := min count (min left (sectorSize - pieceOffset offset))

/-- The READ of a piece and the look at its `RESULT`: into the target from its byte `done` on, or discarding (R290). -/
def pieceLines (target : Option Nat) (done : Nat) (sector : Word) (offset count : Nat) : List HostLine :=
  (match target with
    | some a => opRead sector (BitVec.ofNat 10 offset) (BitVec.ofNat 10 count) (BitVec.ofNat 16 (a + done))
    | none => opSkip sector (BitVec.ofNat 10 offset) (BitVec.ofNat 10 count)) ++ [.result]

/-- The start of a call. -/
def FsRun.start (target : Option Nat) (want : Nat) (c : FsCall) : FsRun :=
  { target := target, want := want, done := 0, pieces := c.pieces, error := c.error, lines := [], count := 0 }

/-- The call is over: it has what it wants, or its pieces are at an end. -/
def FsRun.over (f : FsRun) : Bool :=
  f.lines.isEmpty && (f.pieces.isEmpty || decide (f.done = f.want))

/-- The call takes up its next piece. -/
def FsRun.takePiece (f : FsRun) : FsRun :=
  match f.pieces with
  | [] => f
  | .read sector offset count :: rest =>
    let n := pieceCount offset count (f.want - f.done)
    { f with pieces := rest, lines := pieceLines f.target f.done sector (pieceOffset offset) n, count := n }
  | .copy b :: rest =>
    match f.target with
    | some a => { f with pieces := rest, lines := [.access (wrb (a + f.done) b)], count := 1 }
    | none => { f with pieces := rest, done := f.done + 1 }

/-- The call after an access that left `left` of its piece's lines and assigned `values`: a `RESULT` other than OK ends the
call with an error (R289), and no READ is tried again (DEDUCED, log entry 25); a piece that has ended has brought its bytes. -/
def FsRun.afterAccess (f : FsRun) (left : List HostLine) (values : List Word) : FsRun :=
  if values.any (fun r => decide (r ≠ 0)) then { f with lines := [], pieces := [], error := true }
  else if left.isEmpty then { f with lines := [], done := f.done + f.count }
  else { f with lines := left }

/-- One step of a call beside the block: the next access of its piece, or the next piece. -/
def FsRun.step (f : FsRun) (s : State) : State × FsRun :=
  match f.lines with
  | [] => (s, f.takePiece)
  | l :: ls =>
    let r := HostRun.host ⟨s, l :: ls, []⟩
    (r.s, f.afterAccess r.lines r.values)

/-! ### The WAV header (R281 to R283) -/

/-- Length of the header in bytes (R281). -/
def headerSize : Nat := 44

/-- Accepted sample rates, inclusive (R7, R282). -/
def rateMin : Nat := 8000
def rateMax : Nat := 10000

/-- Smallest data size the caller plays (R283, R285). -/
def minDataBytes : Nat := 1024

/-- Byte `i` of a header. -/
def headerByte (h : List Byte) (i : Nat) : Byte := h.getD i 0

/-- The little-endian 16-bit field at byte `i`. -/
def field16 (h : List Byte) (i : Nat) : BitVec 16 :=
  headerByte h (i + 1) ++ headerByte h i

/-- The little-endian 32-bit field at byte `i`. -/
def field32 (h : List Byte) (i : Nat) : Word :=
  headerByte h (i + 3) ++ headerByte h (i + 2) ++ headerByte h (i + 1) ++ headerByte h i

/-- The four bytes at byte `i`, for a four-character tag. -/
def tagAt (h : List Byte) (i : Nat) : List Byte :=
  [headerByte h i, headerByte h (i + 1), headerByte h (i + 2), headerByte h (i + 3)]

/-- The checks of R281, R282 on the bytes that were read; the data-chunk id is not checked. -/
def headerValid (h : List Byte) : Bool :=
  decide (headerSize ≤ h.length
    ∧ tagAt h 0 = [0x52, 0x49, 0x46, 0x46]
    ∧ tagAt h 8 = [0x57, 0x41, 0x56, 0x45]
    ∧ tagAt h 12 = [0x66, 0x6D, 0x74, 0x20]
    ∧ field32 h 16 = 16
    ∧ field16 h 20 = 1
    ∧ field16 h 22 = 1
    ∧ rateMin ≤ (field32 h 24).toNat ∧ (field32 h 24).toNat ≤ rateMax
    ∧ field16 h 34 = 8)

/-- `load_header()` on the bytes that `fs_read` returned: the data-chunk size, or 0 (R282, R283). -/
def loadHeader (h : List Byte) : Word :=
  if headerValid h then field32 h 40 else 0

/-- The caller's check of the size (R283, R285). -/
def playable (size : Word) : Bool :=
  decide (minDataBytes ≤ size.toNat)

/-- The timer divisor: round(`F_TCLK` / rate) − 1, which must lie in 0 to 0xFFFF (R284); `none` where it does not. A tie
rounds up: DESIGN CHOICE, R284 names no rule for a tie (log entry 13). -/
def timerDivisor (fTclk rate : Nat) : Option Nat :=
  let period := (2 * fTclk + rate) / (2 * rate)
  if 1 ≤ period ∧ period ≤ 0x10000 then some (period - 1) else none

/-- What a successful `load_header` programs: the divisor, and a stopped output (R283). No divisor in range: `TDIV` is not
written, DESIGN CHOICE (log entry 13). -/
def headerAccesses (fTclk : Nat) (h : List Byte) : List HostReq :=
  if headerValid h then
    match timerDivisor fTclk (field32 h 24).toNat with
    | some d => [wr 0x34 (BitVec.ofNat 32 d), audioStop]
    | none => [audioStop]
  else []

/-! ### The streaming sequence (R286 to R289) -/

/-- What a streaming host is built for: the block's buffer size, and the two points R288 and R289 leave to the host. -/
structure StreamConfig where
  bufSize : Nat
  /-- It waits for `SWAP` on `IRQ`; else it polls `ASTAT` (R288 allows both). -/
  byIrq : Bool
  /-- `ack_swap` and `ack_underrun` follow its `audio_stop` (R289: they may). -/
  cleanUp : Bool
  deriving DecidableEq, Repr

/-- What the streaming host does next: an access, or a call of the filesystem (R290). -/
inductive HostAction where
  | access (r : HostReq)
  /-- `fs_skip(n)`. -/
  | fsSkip (n : Nat)
  /-- `fs_read(a, n)`. -/
  | fsRead (a n : Nat)
  deriving DecidableEq, Repr

/-- What the streaming host learns. -/
inductive StreamEvent where
  /-- The `STATUS` word with which INIT ended, the header bytes read, and the file's position, when a file is to be played
  (R286, R334). -/
  | start (status : Word) (header : List Byte) (position : Nat)
  /-- `ASTAT` was read. -/
  | astat (t : Word)
  /-- `IRQ` is asserted. -/
  | irq
  /-- The filesystem call returned `n` bytes, and whether it reported an error (R289, R290). -/
  | fsDone (n : Nat) (error : Bool)
  deriving DecidableEq, Repr

/-- Where the host is in the streaming sequence (R286): Idle; Priming, in its three filesystem calls; Playing, waiting for
`SWAP`, for the `ASTAT` read after the acknowledgement, or for the refill of buffer `b`; Draining; Stopped. -/
inductive StreamPhase where
  | idle
  | skipping
  | fillFirst
  | fillSecond (n0 : Nat)
  | waitSwap
  | acked
  | refill (b : Bool)
  | draining
  | stopped
  deriving DecidableEq, Repr

/-- The streaming host: its phase, and whether a filesystem call has reported an error. -/
structure StreamHost where
  phase : StreamPhase
  failed : Bool
  deriving DecidableEq, Repr

/-- The host before the sequence. -/
def StreamHost.idle : StreamHost := { phase := .idle, failed := false }

/-- What the sequence returns once it has stopped: success exactly when no filesystem call failed (R289). -/
def StreamHost.result (h : StreamHost) : Option Bool :=
  match h.phase with
  | .stopped => some (!h.failed)
  | _ => none

/-- The `STATUS` word is that of a successful INIT: it has ended, with OK, and a family is established (R286, R300, R334). -/
def initSucceeded (status : Word) : Bool :=
  !status.getLsbD 0 && decide (resultField status = 0) && status.getLsbD 4

/-- The sequence may start: INIT was successful, the header is playable, and the file stands at the byte after the header
(R286). -/
def streamReady (status : Word) (header : List Byte) (position : Nat) : Bool :=
  initSucceeded status && playable (loadHeader header) && decide (position = headerSize)

/-- The priming skip, to the first full sector after the header (R287). -/
def primingSkip : Nat := sectorSize - headerSize

/-- One read of `ASTAT`, as a step of a poll or by itself. -/
def readAstat : HostAction := .access (rd 0x24)

/-- The wait for `SWAP`: the first read of a poll, or nothing until `IRQ` (R288). -/
def awaitSwap (c : StreamConfig) : List HostAction :=
  if c.byIrq then [] else [readAstat]

/-- After a read of `n` bytes into a buffer: a full one is followed by the wait for the next swap (R288), a short one by the
poll for `DRAINED` (R289). -/
def afterFill (c : StreamConfig) (n : Nat) (failed : Bool) : StreamHost × List HostAction :=
  if n = c.bufSize then (⟨.waitSwap, failed⟩, awaitSwap c) else (⟨.draining, failed⟩, [readAstat])

/-- `SWAP` was seen: it is acknowledged, then `ASTAT` is read for the active index (R288). -/
def takeSwap (failed : Bool) : StreamHost × List HostAction :=
  (⟨.acked, failed⟩, [.access ackSwap, readAstat])

/-- `audio_stop`, and the acknowledgements that may follow (R289). -/
def stopActions (c : StreamConfig) : List HostAction :=
  .access audioStop :: if c.cleanUp then [.access ackSwap, .access ackUnderrun] else []

/-- The first address of buffer `b`. -/
def bufferBase (bufSize : Nat) (b : Bool) : Nat :=
  if b then bufSize else 0

/-- The host's next phase and what it does (R286 to R289); an event the phase does not wait for changes nothing. A call that
reported an error goes on with the bytes it returned, since R289 reports the error at the end (DEDUCED, log entry 25). -/
def streamStep (c : StreamConfig) (h : StreamHost) (e : StreamEvent) : StreamHost × List HostAction :=
  match h.phase, e with
  | .idle, .start status header position =>
    if streamReady status header position then
      (⟨.skipping, h.failed⟩, [.access audioReset, .fsSkip primingSkip])
    else (h, [])
  | .skipping, .fsDone n error =>
    if n < primingSkip then (⟨.stopped, h.failed || error⟩, [])
    else (⟨.fillFirst, h.failed || error⟩, [.fsRead 0 c.bufSize])
  | .fillFirst, .fsDone n error =>
    if n = 0 then (⟨.stopped, h.failed || error⟩, [])
    else (⟨.fillSecond n, h.failed || error⟩, [.fsRead c.bufSize c.bufSize])
  | .fillSecond n0, .fsDone n1 error =>
    let (h', wait) := afterFill c n1 (h.failed || error)
    (h', .access (wr 0x2C (BitVec.ofNat 32 (n0 + n1))) :: audioStart.map .access ++ wait)
  | .waitSwap, .astat t => if pollEnds 0x2 0x2 t then takeSwap h.failed else (h, [readAstat])
  | .waitSwap, .irq => if c.byIrq then takeSwap h.failed else (h, [])
  | .acked, .astat t =>
    let b := !t.getLsbD 0
    (⟨.refill b, h.failed⟩, [.fsRead (bufferBase c.bufSize b) c.bufSize])
  | .refill _, .fsDone n error =>
    let (h', wait) := afterFill c n (h.failed || error)
    (h', .access (remAdd (BitVec.ofNat 32 n)) :: wait)
  | .draining, .astat t => if pollEnds 0x8 0x8 t then (⟨.stopped, h.failed⟩, stopActions c) else (h, [readAstat])
  | _, _ => (h, [])

end Sys2Proof.Machine
end

