-- ==== Sys2Proof/Safety.lean ====
section
/-! DEFINITION. The terms claims use: runs of the engine and of listed moves, what a run added to the bus trace, the
invariant of the block's state, and the streaming host beside the block. -/

namespace Sys2Proof.Machine

/-! ### Runs -/

/-- `n` engine steps and nothing else, stopping where a step does not answer a next state. -/
def engineRun (n : Nat) (s : State) : Host.Outcome State Fault Refusal :=
  match n with
  | 0 => .next s
  | k + 1 =>
    match engineMove s with
    | .next t => engineRun k t
    | .fault r => .fault r
    | .refused r => .refused r

/-- The moves of a list, in order. -/
def runMoves (ms : List Move) (s : State) : Host.Outcome State Fault Refusal :=
  match ms with
  | [] => .next s
  | m :: rest =>
    match moveStep m s with
    | .next t => runMoves rest t
    | .fault r => .fault r
    | .refused r => .refused r

/-- The bus events of `t` that `s` did not have yet, oldest first, where `t` was reached from `s`. -/
def newEvents (s t : State) : List BusEvent :=
  (busTrace t).drop s.trace.length

/-- The bytes the block sent in them. -/
def sentBytes (s t : State) : List Byte :=
  (newEvents s t).map (fun e => e.out)

/-- The bytes it received in them. -/
def receivedBytes (s t : State) : List Byte :=
  (newEvents s t).map (fun e => e.inp)

/-- The bytes of a card that answers one command's poll at the first exchange: 8 bytes the engine ignores, then `r`. -/
def answers (ignored : List Byte) (r : Byte) : List Byte := ignored ++ [r]

/-! ### The invariant (R45, R46, R47, and the ranges of 10_state.md) -/

/-- R46: no open write leaves no cursor and a deselected card; an open write has a family and a selected card. -/
def restOk (s : State) : Bool :=
  if s.wopen then decide (s.family ≠ .unknown) && s.csa else decide (s.wcur = 0) && !s.csa

/-- No write is open. -/
def noWrite (s : State) : Bool :=
  !s.wopen && decide (s.wcur = 0)

/-- The caller of a card command is in INIT, whose descriptor is cleared (R182), or in a READ or WRITE open, which need a
family (R212, R219). -/
def callerOk (k : Caller) (s : State) : Bool :=
  match k with
  | .read => ready s
  | .writeOpen => ready s
  | .initIdle _ => !ready s
  | .initVersion => !ready s
  | .initHcs _ => !ready s
  | .initOcr => !ready s
  | .initProbe => !ready s
  | .initLoop _ _ => !ready s
  | .initBlockLen _ => !ready s

/-- The same for the place a command's response goes back to; a leading command's application command is INIT's. -/
def retOk (ret : Ret) (s : State) : Bool :=
  match ret with
  | .plain k => callerOk k s
  | .lead _ k => callerOk k s

/-- Chip-select and the local counters of `send_command`. -/
def phaseOk (ph : CmdPhase) (s : State) : Bool :=
  match ph with
  | .desel => true
  | .sel => !s.csa
  | .flush => s.csa
  | .byte k => s.csa && decide (k ≤ 5)
  | .poll left => s.csa && decide (left < pollR1)

/-- `close_write` runs for WRITE close, whose open write has a family (R219), or for INIT, whose descriptor is cleared at its
first step (R182). -/
def closeForOk (k : CloseFor) (s : State) : Bool :=
  match k with
  | .op => ready s
  | .init => !ready s

/-- What holds of the transport, the descriptor and the write stream at each sequencer position. -/
def engineOk (s : State) : Bool :=
  match s.eng with
  | .idle => restOk s
  | .launched => restOk s
  | .fin _ => restOk s
  | .cmd ret _ ph => noWrite s && phaseOk ph s && retOk ret s
  | .initTinit => noWrite s && !ready s
  | .initDesel => noWrite s && !ready s && !s.csa
  | .powerUp left => noWrite s && !ready s && !s.csa && decide (left < nPwrUp)
  | .rd4 _ left _ => noWrite s && !ready s && s.csa && decide (left < 4)
  | .initEnd _ _ => noWrite s && !ready s
  | .setFast => noWrite s && ready s && !s.csa
  | .readCheckOpen => restOk s && ready s
  | .readCheckSum => restOk s && ready s && !s.wopen
  | .readCheckRange => restOk s && ready s && !s.wopen
  | .token _ => noWrite s && ready s && s.csa
  | .packet j => noWrite s && ready s && s.csa && decide (j < sectorSize + crcBytes)
  | .desel _ => noWrite s && ready s
  | .openCheck => restOk s && ready s
  | .gap => noWrite s && ready s && s.csa
  | .openToken => noWrite s && ready s && s.csa
  | .sendData i n => restOk s && decide (i < n ∧ n - i ≤ s.wcur.toNat)
  | .closePad k => s.wopen && closeForOk k s && s.csa && decide (s.wcur ≠ 0)
  | .closeCrc k _ => s.wopen && closeForOk k s && s.csa && decide (s.wcur = 0)
  | .closeResp k => s.wopen && closeForOk k s && s.csa && decide (s.wcur = 0)
  | .closeBusy k _ => s.wopen && closeForOk k s && s.csa && decide (s.wcur = 0)
  | .closeDesel k _ => s.wopen && closeForOk k s && s.csa && decide (s.wcur = 0)

/-- Every listed block-memory address is inside block memory (R61). -/
def memInside (s : State) : Bool :=
  s.mem.all (fun c => decide (c.1 < bmemSize s.par))

/-- The invariant of the block's state. -/
structure BlockInv (s : State) : Prop where
  /-- The parameters are in the ranges of R7. -/
  params : paramsOk s.par = true
  /-- R45: a block-addressed card is an SD version 2 card. -/
  block : s.block = true → s.family = .sdv2
  /-- R31: the write cursor is at most 512. -/
  wcur : s.wcur.toNat ≤ sectorSize
  /-- R47: the fill cursor is at most `BUF_SIZE`. -/
  acur : s.acur.toNat ≤ s.par.bufSize
  /-- R245: the pulse-width counter holds 0 while the output is disabled. -/
  pcnt : s.pen = false → s.pcnt = 0
  /-- Block memory is in canonical form. -/
  memory : Memory.wf s.mem = true
  /-- Nothing is stored outside block memory. -/
  inside : memInside s = true
  /-- R46, and what holds at each step of an operation. -/
  engine : engineOk s = true

/-! ### The streaming host beside the block (R286 to R290, R256) -/

/-- Who moves: the host, the engine, or one of the two clocks. -/
inductive PlayMove where
  | host
  | engine
  | tclk
  | pclk
  deriving DecidableEq, Repr

/-- The block and the streaming host: the accesses and calls the host has still to make; the filesystem call that runs, the
calls to come, whether a call has come short, and what each call that returned gave; every byte brought to block memory,
how many of them the host has counted, and every byte a tick wrote to `DUTY`. -/
structure Play where
  s : State
  host : StreamHost
  todo : List HostAction
  call : Option FsRun
  calls : List FsCall
  ended : Bool
  outcomes : List (Nat × Bool)
  given : List Byte
  counted : Nat
  emitted : List Byte
  deriving DecidableEq, Repr

/-- One clock of the sample-rate timer; the byte a tick wrote to `DUTY` is recorded when it wrote one (R244, R252). -/
def Play.clock (p : Play) : Play :=
  let t := outcomeState p.s (moveStep .tclk p.s)
  { p with s := t, emitted := if timerExpires p.s ∧ p.s.arem ≠ 0 then p.emitted ++ [t.duty] else p.emitted }

/-- The engine's next step stores the byte it receives into block memory (R215). -/
def storesByte (s : State) : Bool :=
  match s.eng, engineInstr s with
  | .packet j, some (.read _ off cnt dest) => (storeAddress (some dest) off cnt j).isSome
  | _, _ => false

/-- One engine step; the card's byte is recorded when a READ stores it. -/
def Play.engine (p : Play) : Play :=
  { p with s := outcomeState p.s (moveStep .engine p.s)
           given := if storesByte p.s then p.given ++ [cardByte p.s] else p.given }

/-- The host learns of an event. -/
def Play.learn (c : StreamConfig) (e : StreamEvent) (p : Play) : Play :=
  let (h, next) := streamStep c p.host e
  { p with host := h, todo := p.todo ++ next }

/-- How many bytes are counted as samples after an access: a store to `AREM` counts afresh, one to `AREMADD` adds. -/
def countedAfter (r : HostReq) (counted : Nat) : Nat :=
  match r.acc with
  | .read _ => counted
  | .write _ v => if r.offset = 0x2C then v.toNat else if r.offset = 0x30 then counted + v.toNat else counted

/-- One access of the host, and, of a load, what it returned. -/
def Play.access (c : StreamConfig) (r : HostReq) (p : Play) : Play :=
  let p1 := { p with s := outcomeState p.s (hostMove r p.s), counted := countedAfter r p.counted }
  match p1.s.resp, r.acc with
  | .data v, .read _ => p1.learn c (.astat v)
  | _, _ => p1

/-- A filesystem call begins. The file is a sequential stream (R290): once a call has come short, the next bring nothing
(DEDUCED, log entry 25). -/
def Play.startCall (target : Option Nat) (want : Nat) (p : Play) : Play :=
  let call := p.calls.headD default
  { p with calls := p.calls.tail
           call := some (FsRun.start target want (if p.ended then { call with pieces := [] } else call)) }

/-- The byte that the call's next access copies into block memory itself. -/
def FsRun.copies (f : FsRun) : List Byte :=
  match f.lines with
  | [.access { offset := _, acc := .write .w8 v }] => [v.extractLsb' 0 8]
  | _ => []

/-- One step of the filesystem call that runs, or its return. -/
def Play.stepCall (c : StreamConfig) (f : FsRun) (p : Play) : Play :=
  if f.over then
    { p with call := none, ended := p.ended || decide (f.done < f.want), outcomes := p.outcomes ++ [(f.done, f.error)] }.learn c
      (.fsDone f.done f.error)
  else
    let (t, f') := f.step p.s
    { p with s := t, call := some f', given := p.given ++ f.copies }

/-- One step of the host: in a filesystem call; else its next action; else a look at `IRQ`. -/
def Play.hostStep (c : StreamConfig) (p : Play) : Play :=
  match p.call, p.todo with
  | some f, _ => p.stepCall c f
  | none, [] => if irq p.s then p.learn c .irq else p
  | none, .access r :: rest => { p with todo := rest }.access c r
  | none, .fsSkip n :: rest => { p with todo := rest }.startCall none n
  | none, .fsRead a n :: rest => { p with todo := rest }.startCall (some a) n

/-- One move. -/
def Play.move (c : StreamConfig) (m : PlayMove) (p : Play) : Play :=
  match m with
  | .host => p.hostStep c
  | .engine => p.engine
  | .tclk => p.clock
  | .pclk => { p with s := outcomeState p.s (moveStep .pclk p.s) }

/-- An interleaving of moves (R71). -/
def Play.run (c : StreamConfig) (ms : List PlayMove) (p : Play) : Play :=
  match ms with
  | [] => p
  | m :: rest => Play.run c rest (p.move c m)

/-- The start of the sequence (R286, R287): the host has learned that it may start, and has made its first access. -/
def Play.start (c : StreamConfig) (s : State) (status : Word) (header : List Byte) (position : Nat) (calls : List FsCall) :
    Play :=
  Play.hostStep c
    (Play.learn c (.start status header position)
      { s := s, host := .idle, todo := [], call := none, calls := calls, ended := false, outcomes := [], given := [],
        counted := 0, emitted := [] })

end Sys2Proof.Machine
end

