-- ==== Sys2Proof/Certificates/Slice0/Obligations.lean ====
section
/-! DEFINITION. The statements for the provers, in the order of OBLIGATIONS.json. A record update `{ s with … }` that a
statement gives as the next state is also its frame: every field not named is unchanged. -/

open Sys2Proof Sys2Proof.Machine

/-! ### Encoding -/

/-- Decoding the encoding of a well-formed instruction gives it back, for all 54 rows and every operand. -/
def Obligations.DecodeOfEncodeIsIdentity : Prop :=
  ∀ i : Instr, i.wf = true → decode (encode i) = .ok i

/-- The decoder gives well-formed instructions only. -/
def Obligations.DecodeGivesWellFormed : Prop :=
  ∀ (f : Fetched) (i : Instr), decode f = .ok i → i.wf = true

/-- R93: the reserved bits of a `CMD` word are ignored: only `OP` and `DEN` choose the operation. -/
def Obligations.ReservedCmdBitsAreIgnored : Prop :=
  ∀ c d arg0 arg1 addr : Word,
    c.extractLsb' 0 4 = d.extractLsb' 0 4 → c.getLsbD 8 = d.getLsbD 8 →
      decodeOp c arg0 arg1 addr = decodeOp d arg0 arg1 addr

/-- R95, R96, R98: a frame is the command byte `0x40 | index`, the argument most significant byte first, and the
trailer: 0x95 for CMD0, 0x87 for CMD8, 0x01 for every other; two card commands with one frame are one command. -/
def Obligations.FrameLayoutAndFaithfulness : Prop :=
  (∀ c : CardCmd,
    c.frame = [0x40#8 ||| c.index.setWidth 8, c.arg.extractLsb' 24 8, c.arg.extractLsb' 16 8, c.arg.extractLsb' 8 8,
      c.arg.extractLsb' 0 8, if c = .cmd0 then 0x95#8 else if c = .cmd8 then 0x87#8 else 0x01#8])
    ∧ (∀ c d : CardCmd, c.frame = d.frame → c = d)

/-- Words written out from 30_encoding.md and the offsets of 10_state.md, one or more of each format. That a store of 0x4 to
offset 0x24 is the UNDERRUN row and one of 0x6 the SWAP row is the model's choice of name (log entry 9). -/
def Obligations.SampleWordsDecode : Prop :=
  decode (.op 0x00000001 0 0 0) = .ok .init
    ∧ decode (.op 0x00000102 0x00000001 0x000201FE 0x00000010) = .ok (.read 1 510 2 0x10)
    ∧ decode (.op 0xFFFFFEF2 0x00000007 0x00100000 0) = .ok (.readSkip 7 0 16)
    ∧ decode (.op 0x00000103 0x00000258 0 0x00000008) = .ok (.writeData 600 8)
    ∧ decode (.op 0x00000003 0x00000005 0 0) = .ok (.writeOpen 5)
    ∧ decode (.op 0x00000003 0x00000000 0 0) = .ok .writeClose
    ∧ decode (.op 0x0000000F 0 0 0) = .ok (.reservedOp8F 7)
    ∧ decode (.access { offset := 0x00024, acc := .write .w32 0x6 }) = .ok (.wrAstatSwap .w32 6)
    ∧ decode (.access { offset := 0x00024, acc := .write .w32 0x4 }) = .ok (.wrAstatUnderrun .w32 4)
    ∧ decode (.access { offset := 0x10208, acc := .read .w8 }) = .ok (.bmem 0x208 (.read .w8))
    ∧ decode (.access { offset := 0x00002, acc := .read .w32 }) = .error .misalignedRegister
    ∧ decode .event = .ok .tick
    ∧ decode (.frame [0x40, 0x00, 0x00, 0x00, 0x00, 0x95]) = .ok .cmd0
    ∧ decode (.frame [0x48, 0x00, 0x00, 0x01, 0xAA, 0x87]) = .ok .cmd8
    ∧ decode (.frame [0x69, 0x40, 0x00, 0x00, 0x00, 0x01]) = .ok (.acmd41 true)
    ∧ decode (.frame [0x51, 0x24, 0x68, 0xAC, 0x00, 0x01]) = .ok (.cmd17 0x2468AC00)
    ∧ decode (.frame [0x58, 0x00, 0x00, 0x0A, 0x00, 0x01]) = .ok (.cmd24 0x00000A00)

/-! ### The step -/

/-- The step takes one move; a host access runs the instruction its offset names, an engine move the instruction the
engine is at, a timer expiry the tick on the restarted timer; an idle engine takes no step (R21).
That a step is one listed or free move is the model's (log entries 6 and 19). -/
def Obligations.StepRunsTheDecodedInstruction : Prop :=
  (∀ (s : State) (r : HostReq) (i : Instr), nextMove s = .host r → decode (.access r) = .ok i →
      step s = exec i (takeMove s))
    ∧ (∀ (s : State) (i : Instr), nextMove s = .engine → engineInstr s = some i → step s = exec i (takeMove s))
    ∧ (∀ s : State, nextMove s = .tclk → s.ten = true → s.tdiv.toNat ≤ s.tcnt.toNat →
        step s = exec .tick { takeMove s with tcnt := 0 })
    ∧ (∀ s : State, nextMove s = .engine → busy s = false → step s = .next (takeMove s))

/-- R139, R308: nothing stops the block: every step answers a next state.
That a bus error is a next state is the model's reading (log entry 1). -/
def Obligations.EveryStepAnswersANextState : Prop :=
  ∀ s : State, ∃ t, step s = .next t

/-! ### Reset and the invariant -/

/-- R50: the values of every register and output after reset, for every instance. That unwritten block memory is a free value
of the reset count and the address is the model's reading (log entry 4). -/
def Obligations.ResetGivesEveryRegisterItsValue : Prop :=
  ∀ (p : Params) (s : State), s = State.resetOf p →
    cmdWord s = 0 ∧ s.arg0 = 0 ∧ arg1Reg s = 0 ∧ addrWord s = 0 ∧ statusWord s = 0x00000004
      ∧ wcurWord s = 0 ∧ lastR1Word s = 0x000000FF ∧ s.ocr = 0 ∧ actrlWord s = 0 ∧ astatWord s = 0x00000008
      ∧ acurWord s = 0 ∧ s.arem = 0 ∧ tdivWord s = 0x0000FFFF ∧ dutyWord s = 0x00000080
      ∧ paramWord s = (BitVec.ofNat 16 p.bufSize).setWidth 32
      ∧ s.tcnt = 0 ∧ s.pcnt = 0 ∧ s.eng = .idle ∧ (∀ a, memRead s a = Config.bmemUnwritten s.epoch a)
      ∧ irq s = false ∧ pwmPin s = false ∧ chipSelectLine s = true ∧ serialClockLine s = false ∧ s.dout = true

/-- R330 to R333: the reset input gives the block its reset values in one step from any state, an operation ends with
`RESULT` NOTRDY, block memory becomes unspecified, and what the card has seen is not taken back. What of the environment goes
on, and the renewed free values, are the model's (log entries 4 and 21); so are the zero of the latches (log entry 8) and the
host port's empty answer (log entry 7). -/
def Obligations.ResetInputResetsTheBlockOnly : Prop :=
  ∀ s : State, ∃ t, moveStep .reset s = .next t
    ∧ t = { State.resetOf s.par with
              trace := s.trace
              cardIn := s.cardIn
              moves := s.moves
              draws := s.draws
              epoch := s.epoch + 1 }
    ∧ busy t = false ∧ t.result = .notRdy ∧ (∀ a, memRead t a = Config.bmemUnwritten (s.epoch + 1) a)

/-- Reset meets the invariant, for every instance with parameters in range. -/
def Obligations.ResetMeetsTheInvariant : Prop :=
  ∀ p : Params, paramsOk p = true → BlockInv (State.resetOf p)

/-- R45, R46, R47 and the ranges of the cursors hold after every step from a state that meets the invariant. -/
def Obligations.StepKeepsTheInvariant : Prop :=
  ∀ s t : State, BlockInv s → step s = .next t → BlockInv t

/-! ### Register loads and stores -/

/-- R23, R25, R27 to R29, R34, R35: a load of a register with fields returns the fields, reserved bits 0, and changes
nothing else; the numbers of R28 and R29 are those of each result and family. -/
def Obligations.FieldRegisterLoads : Prop :=
  ∀ s : State,
    (∃ v : Word, exec (.rdStatus .w32) s = .next { s with resp := .data v }
      ∧ v.getLsbD 0 = busy s
      ∧ (v.extractLsb' 1 3).toNat = (match s.result with | .ok => 0 | .error => 1 | .notRdy => 2 | .parErr => 3)
      ∧ v.getLsbD 4 = decide (s.family ≠ .unknown)
      ∧ (v.extractLsb' 5 2).toNat = (match s.family with | .unknown => 0 | .sdv1 => 1 | .sdv2 => 2 | .mmcv3 => 3)
      ∧ v.getLsbD 7 = s.block ∧ v.getLsbD 8 = s.wopen ∧ v.getLsbD 9 = s.fast
      ∧ v.getLsbD 10 = s.csa ∧ v.getLsbD 11 = s.lost ∧ v.extractLsb' 12 20 = 0)
    ∧ (∃ v : Word, exec (.rdCmd .w32) s = .next { s with resp := .data v }
      ∧ v.extractLsb' 0 4 = s.cmdOp ∧ v.extractLsb' 4 4 = 0 ∧ v.getLsbD 8 = s.cmdDen ∧ v.extractLsb' 9 23 = 0)
    ∧ (∃ v : Word, exec (.arg1 (.read .w32)) s = .next { s with resp := .data v }
      ∧ v.extractLsb' 0 10 = s.argOffset ∧ v.extractLsb' 10 6 = 0 ∧ v.extractLsb' 16 10 = s.argCount
      ∧ v.extractLsb' 26 6 = 0)
    ∧ (∃ v : Word, exec (.rdActrl .w32) s = .next { s with resp := .data v }
      ∧ v.getLsbD 0 = s.ten ∧ v.getLsbD 1 = s.pen ∧ v.getLsbD 2 = s.ien ∧ v.extractLsb' 3 29 = 0)
    ∧ (∃ v : Word, exec (.rdAstat .w32) s = .next { s with resp := .data v }
      ∧ v.getLsbD 0 = s.active ∧ v.getLsbD 1 = s.swap ∧ v.getLsbD 2 = s.underrun
      ∧ v.getLsbD 3 = decide (s.arem = 0) ∧ v.extractLsb' 4 28 = 0)

/-- R20, R24, R26, R31 to R33, R36 to R41: loads of the registers that are one value, `AREMADD` reading 0; the read-only
ones ignore stores. -/
def Obligations.ValueRegisterLoadsAndIgnoredStores : Prop :=
  (∀ s : State,
    exec (.arg0 (.read .w32)) s = .next { s with resp := .data s.arg0 }
    ∧ exec (.addr (.read .w32)) s = .next { s with resp := .data (s.addr.setWidth 32) }
    ∧ exec (.wcur (.read .w32)) s = .next { s with resp := .data (s.wcur.setWidth 32) }
    ∧ exec (.lastr1 (.read .w32)) s = .next { s with resp := .data (s.lastR1.setWidth 32) }
    ∧ exec (.ocr (.read .w32)) s = .next { s with resp := .data s.ocr }
    ∧ exec (.acur (.read .w32)) s = .next { s with resp := .data (s.acur.setWidth 32) }
    ∧ exec (.rdArem .w32) s = .next { s with resp := .data s.arem }
    ∧ exec (.aremadd (.read .w32)) s = .next { s with resp := .data 0 }
    ∧ exec (.rdTdiv .w32) s = .next { s with resp := .data (s.tdiv.setWidth 32) }
    ∧ exec (.rdDuty .w32) s = .next { s with resp := .data (s.duty.setWidth 32) }
    ∧ exec (.param (.read .w32)) s = .next { s with resp := .data ((BitVec.ofNat 16 s.par.bufSize).setWidth 32) })
  ∧ (∀ (s : State) (v : Word), ∀ i ∈ [Instr.wcur (.write .w32 v), .lastr1 (.write .w32 v), .ocr (.write .w32 v),
      .acur (.write .w32 v), .param (.write .w32 v)],
    exec i s = .next { s with resp := .done })

/-- R24 to R26, R22: stores to the operand registers, whatever the engine is doing: the latches and the running operation
are unchanged. -/
def Obligations.OperandRegisterStores : Prop :=
  ∀ (s : State) (v : Word),
    exec (.arg0 (.write .w32 v)) s = .next { s with arg0 := v, resp := .done }
    ∧ exec (.arg1 (.write .w32 v)) s =
        .next { s with argOffset := v.extractLsb' 0 10, argCount := v.extractLsb' 16 10, resp := .done }
    ∧ exec (.addr (.write .w32 v)) s = .next { s with addr := v.extractLsb' 0 16, resp := .done }

/-- R210, R22, R94: a store to `CMD` while the engine is idle launches: `CMD`, the latches and `BUSY`, in one step; the
engine is then at the operation that the word and the operand registers name.
`BUSY` is the engine's position (log entry 14). -/
def Obligations.CmdStoreLaunchesWhenIdle : Prop :=
  ∀ (s : State) (v : Word), busy s = false →
    ∃ t, exec (.wrCmd .w32 v) s = .next t
      ∧ t = { s with
                cmdOp := v.extractLsb' 0 4
                cmdDen := v.getLsbD 8
                latch := ⟨v.extractLsb' 0 4, v.getLsbD 8, s.arg0, s.argOffset, s.argCount, s.addr⟩
                eng := .launched
                resp := .done }
      ∧ busy t = true
      ∧ engineInstr t = some (decodeOp v s.arg0 (arg1Reg s) (addrWord s))

/-- R30: `LOST` is set by a `CMD` store while busy, which does nothing else; a `STATUS` store with bit 11 clears it and
does nothing else; no other move clears it but the reset input, which R50 and R330 give `LOST` = 0. -/
def Obligations.LostIsStickyUntilAcknowledged : Prop :=
  (∀ (s : State) (v : Word), busy s = true →
      exec (.wrCmd .w32 v) s = .next { s with lost := true, resp := .done })
    ∧ (∀ (s : State) (v : Word),
        exec (.wrStatus .w32 v) s = .next { s with lost := s.lost && !v.getLsbD 11, resp := .done })
    ∧ (∀ (m : Move) (s t : State), moveStep m s = .next t → s.lost = true →
        t.lost = true ∨ m = .reset ∨ ∃ v, m = .host { offset := 0x10, acc := .write .w32 v } ∧ v.getLsbD 11 = true)

/-- R64, R65: the accesses the block accepts, by offset, width and alignment. Every other access is a bus error, which
changes no block state and returns no value; an accepted one is answered with data or with its completion.
The answer as a field of a next state is the model's (log entries 1 and 7). -/
def Obligations.OnlyAcceptedAccessesAreNoBusError : Prop :=
  ∀ (s : State) (r : HostReq) (w : Width), (r.acc = .read w ∨ ∃ v, r.acc = .write w v) →
    if (w = .w32 ∧ r.offset.toNat % 4 = 0 ∧ r.offset.toNat < 0x100)
        ∨ (w = .w8 ∧ 0x10000 ≤ r.offset.toNat ∧ r.offset.toNat < 0x10000 + bmemSize s.par)
        ∨ (w = .w32 ∧ r.offset.toNat % 4 = 0 ∧ 0x10000 ≤ r.offset.toNat
            ∧ r.offset.toNat + 4 ≤ 0x10000 + bmemSize s.par)
    then ∃ t, hostMove r s = .next t ∧ (if r.acc = .read w then ∃ v, t.resp = .data v else t.resp = .done)
    else hostMove r s = .next { s with resp := .busError }

/-- R63, R65: every access to an unmapped offset is a bus error that changes no block state.
The answer as a field of a next state is the model's (log entries 1 and 7). -/
def Obligations.UnmappedOffsetsAreBusErrors : Prop :=
  ∀ (s : State) (acc : Access),
    (∀ lo, exec (.unmapped100 lo acc) s = .next { s with resp := .busError })
    ∧ (∀ lo, exec (.unmapped200 lo acc) s = .next { s with resp := .busError })
    ∧ (∀ lo, exec (.unmapped400 lo acc) s = .next { s with resp := .busError })
    ∧ (∀ lo, exec (.unmapped800 lo acc) s = .next { s with resp := .busError })
    ∧ (∀ lo, exec (.unmapped1000 lo acc) s = .next { s with resp := .busError })
    ∧ (∀ lo, exec (.unmapped2000 lo acc) s = .next { s with resp := .busError })
    ∧ (∀ lo, exec (.unmapped4000 lo acc) s = .next { s with resp := .busError })
    ∧ (∀ lo, exec (.unmapped8000 lo acc) s = .next { s with resp := .busError })

/-- R42: an aligned 32-bit access to a host offset 0x40 to 0xFC reads 0 and ignores stores; the same of the two rows that
hold these offsets. -/
def Obligations.ReservedOffsetsReadZeroAndIgnoreStores : Prop :=
  (∀ (s : State) (o : Offset) (v : Word), 0x40 ≤ o.toNat → o.toNat ≤ 0xFC → o.toNat % 4 = 0 →
      hostMove { offset := o, acc := .read .w32 } s = .next { s with resp := .data 0 }
        ∧ hostMove { offset := o, acc := .write .w32 v } s = .next { s with resp := .done })
    ∧ (∀ (s : State) (lo : BitVec 6) (v : Word), lo.toNat % 4 = 0 →
      exec (.reserved407C lo (.read .w32)) s = .next { s with resp := .data 0 }
        ∧ exec (.reserved407C lo (.write .w32 v)) s = .next { s with resp := .done })
    ∧ (∀ (s : State) (lo : BitVec 7) (v : Word), lo.toNat % 4 = 0 →
      exec (.reserved80FC lo (.read .w32)) s = .next { s with resp := .data 0 }
        ∧ exec (.reserved80FC lo (.write .w32 v)) s = .next { s with resp := .done })

/-! ### Block memory -/

/-- R62, R64: a byte access inside block memory; a store changes that byte only. -/
def Obligations.BmemByteAccess : Prop :=
  ∀ (s : State) (a : BAddr) (v : Word), a.toNat + 1 ≤ bmemSize s.par →
    exec (.bmem a (.read .w8)) s = .next { s with resp := .data ((memRead s a.toNat).setWidth 32) }
      ∧ ∃ t, exec (.bmem a (.write .w8 v)) s = .next t
        ∧ t = { s with mem := t.mem, resp := .done }
        ∧ memRead t a.toNat = v.extractLsb' 0 8
        ∧ (∀ x, x ≠ a.toNat → memRead t x = memRead s x)

/-- R64, R68 (d): an aligned word access inside block memory is little-endian; a store changes those four bytes only. -/
def Obligations.BmemWordAccessIsLittleEndian : Prop :=
  ∀ (s : State) (a : BAddr) (v : Word), a.toNat % 4 = 0 → a.toNat + 4 ≤ bmemSize s.par →
    (∃ w : Word, exec (.bmem a (.read .w32)) s = .next { s with resp := .data w }
      ∧ w.extractLsb' 0 8 = memRead s a.toNat ∧ w.extractLsb' 8 8 = memRead s (a.toNat + 1)
      ∧ w.extractLsb' 16 8 = memRead s (a.toNat + 2) ∧ w.extractLsb' 24 8 = memRead s (a.toNat + 3))
    ∧ (∃ t, exec (.bmem a (.write .w32 v)) s = .next t
      ∧ t = { s with mem := t.mem, resp := .done }
      ∧ memRead t a.toNat = v.extractLsb' 0 8 ∧ memRead t (a.toNat + 1) = v.extractLsb' 8 8
      ∧ memRead t (a.toNat + 2) = v.extractLsb' 16 8 ∧ memRead t (a.toNat + 3) = v.extractLsb' 24 8
      ∧ (∀ x, x < a.toNat ∨ a.toNat + 4 ≤ x → memRead t x = memRead s x)
      ∧ exec (.bmem a (.read .w32)) t = .next { t with resp := .data v })

/-- R62, R73, R333: no instruction but a store to the window and a READ into block memory changes a byte of block memory; of
the moves, only a host store at a window offset, an engine step of a READ into block memory, and the reset input do. -/
def Obligations.OnlyWindowStoresAndReadsChangeBlockMemory : Prop :=
  (∀ (i : Instr) (s t : State), exec i s = .next t →
    (∀ a w v, i ≠ .bmem a (.write w v)) → (∀ sector offset count dest, i ≠ .read sector offset count dest) →
      ∀ x, memRead t x = memRead s x)
  ∧ (∀ (m : Move) (s t : State), moveStep m s = .next t →
    (∀ x, memRead t x = memRead s x)
      ∨ m = .reset
      ∨ (∃ (o : Offset) (w : Width) (v : Word), m = .host ⟨o, .write w v⟩ ∧ 0x10000 ≤ o.toNat)
      ∨ (m = .engine ∧ ∃ sector offset count dest, engineInstr s = some (.read sector offset count dest)))

/-! ### The audio FIFO -/

/-- R241, R242: a store to `ACTRL`: the three fields, the rising edges, the index reset; and, by R245, a counter at 0
while the output is disabled.
That last clause is the model's reading (log entry 11). -/
def Obligations.ActrlStore : Prop :=
  ∀ (s : State) (v : Word), ∃ t, exec (.wrActrl .w32 v) s = .next t
    ∧ t = { s with
        ten := v.getLsbD 0
        pen := v.getLsbD 1
        ien := v.getLsbD 2
        tcnt := if s.ten = false ∧ v.getLsbD 0 = true then 0 else s.tcnt
        duty := if s.pen = false ∧ v.getLsbD 1 = true then 0x80 else s.duty
        pcnt := if (s.pen = false ∧ v.getLsbD 1 = true) ∨ v.getLsbD 1 = false then 0 else s.pcnt
        active := if v.getLsbD 3 = true then false else s.active
        acur := if v.getLsbD 3 = true then 0 else s.acur
        swap := if v.getLsbD 3 = true then false else s.swap
        underrun := if v.getLsbD 3 = true then false else s.underrun
        resp := .done }

/-- R247, R248: a store to `ASTAT`, under either of its rows: bit 1 clears `SWAP`, bit 2 clears `UNDERRUN`, 0 leaves
each, and 0x6 clears both. That both rows' meanings do the whole write is the model's choice (log entry 9). -/
def Obligations.AstatStoreClearsItsFlags : Prop :=
  (∀ (s : State) (v : Word),
      exec (.wrAstatSwap .w32 v) s =
        .next { s with swap := if v.getLsbD 1 then false else s.swap,
                       underrun := if v.getLsbD 2 then false else s.underrun, resp := .done }
      ∧ exec (.wrAstatUnderrun .w32 v) s =
        .next { s with swap := if v.getLsbD 1 then false else s.swap,
                       underrun := if v.getLsbD 2 then false else s.underrun, resp := .done })
    ∧ (∀ s : State, hostMove { offset := 0x24, acc := .write .w32 0x6 } s =
        .next { s with swap := false, underrun := false, resp := .done })

/-- R249: a store to `AREM` replaces the count, and `DRAINED` follows. -/
def Obligations.AremStoreReplacesTheCount : Prop :=
  ∀ (s : State) (v : Word), ∃ t, exec (.wrArem .w32 v) s = .next t
    ∧ t = { s with arem := v, resp := .done } ∧ (drained t = true ↔ v = 0)

/-- R38, R250: a store to `AREMADD` adds modulo 2^32 in one step, a load returns 0, and a tick in the same cycle sees the
sum. -/
def Obligations.AremAddIsAnIndivisibleAdd : Prop :=
  (∀ (s : State) (v : Word), ∃ t, exec (.aremadd (.write .w32 v)) s = .next t
      ∧ t = { s with arem := t.arem, resp := .done }
      ∧ t.arem.toNat = (s.arem.toNat + v.toNat) % 2 ^ 32)
    ∧ (∀ s : State, exec (.aremadd (.read .w32)) s = .next { s with resp := .data 0 })
    ∧ (∀ (s : State) (v : Word), s.ten = true → s.tdiv.toNat ≤ s.tcnt.toNat →
        runMoves (cycleMoves (some (remAdd v)) true false false) s =
          exec .tick { s with arem := s.arem + v, resp := .done, tcnt := 0 })

/-- R251: a store to `TDIV` replaces the divisor, `TCNT` is not cleared, and the next timer clock compares with the new
divisor. -/
def Obligations.TdivStoreIsUsedAtTheNextClock : Prop :=
  ∀ (s : State) (v : Word), ∃ t, exec (.wrTdiv .w32 v) s = .next t
    ∧ t = { s with tdiv := v.extractLsb' 0 16, resp := .done }
    ∧ (s.ten = true → (v.extractLsb' 0 16).toNat ≤ s.tcnt.toNat → moveStep .tclk t = exec .tick { t with tcnt := 0 })
    ∧ (s.ten = true → s.tcnt.toNat < (v.extractLsb' 0 16).toNat →
        moveStep .tclk t = .next { t with tcnt := s.tcnt + 1 })

/-- R253: a store to `DUTY` sets the level the pin compares with. -/
def Obligations.DutyStoreSetsTheLevel : Prop :=
  ∀ (s : State) (v : Word), ∃ t, exec (.wrDuty .w32 v) s = .next t
    ∧ t = { s with duty := v.extractLsb' 0 8, resp := .done }
    ∧ (pwmPin t = true ↔ s.pen = true ∧ s.pcnt.toNat < (v.extractLsb' 0 8).toNat)

/-- R252: the tick: nothing with `AREM` = 0; else one byte of the active buffer to `DUTY`, after the switch when the
buffer was exhausted, `UNDERRUN` recording a switch over an untaken swap. -/
def Obligations.TickEmitsOneSample : Prop :=
  (∀ s : State, s.arem = 0 → exec .tick s = .next s)
    ∧ (∀ s : State, s.arem ≠ 0 → s.acur.toNat ≠ s.par.bufSize →
        exec .tick s = .next { s with
          duty := memRead s ((if s.active then s.par.bufSize else 0) + s.acur.toNat)
          acur := s.acur + 1
          arem := s.arem - 1 })
    ∧ (∀ s : State, s.arem ≠ 0 → s.acur.toNat = s.par.bufSize →
        exec .tick s = .next { s with
          underrun := s.underrun || s.swap
          swap := true
          active := !s.active
          duty := memRead s (if s.active then 0 else s.par.bufSize)
          acur := 1
          arem := s.arem - 1 })

/-- R254: under the invariant the byte a tick emits lies in the buffer that is active after it, below block memory's end,
and the cursor stays within the buffer. -/
def Obligations.TickReadsInsideTheActiveBuffer : Prop :=
  ∀ s : State, BlockInv s → s.arem ≠ 0 → ∃ t j, exec .tick s = .next t
    ∧ j < s.par.bufSize
    ∧ t.acur.toNat = j + 1
    ∧ t.duty = memRead s ((if t.active then s.par.bufSize else 0) + j)
    ∧ (if t.active then s.par.bufSize else 0) + j < bmemSize s.par
    ∧ t.arem.toNat + 1 = s.arem.toNat

/-- R243, R244: a timer that has just started does nothing but count for `TDIV` clocks, and the next clock is a tick that
restarts the count; a stopped timer holds. -/
def Obligations.TimerPeriodIsTdivPlusOne : Prop :=
  (∀ (s : State) (k : Nat), s.ten = true → s.tcnt = 0 → k ≤ s.tdiv.toNat →
      runMoves (List.replicate k .tclk) s = .next { s with tcnt := BitVec.ofNat 16 k })
    ∧ (∀ s : State, s.ten = true → s.tdiv.toNat ≤ s.tcnt.toNat →
        moveStep .tclk s = exec .tick { s with tcnt := 0 })
    ∧ (∀ s : State, s.ten = false → moveStep .tclk s = .next s)

/-- R245: over 256 clocks of `F_PWM` the enabled output's pin is 1 in exactly `DUTY` of them and the counter comes round;
a disabled output's pin is 0 and its counter holds. -/
def Obligations.PulseWidthIsDutyOf256 : Prop :=
  (∀ (s : State) (k : Nat), s.pen = true →
      runMoves (List.replicate k .pclk) s = .next { s with pcnt := s.pcnt + BitVec.ofNat 8 k })
    ∧ (∀ s : State, s.pen = true →
        ((List.range 256).filter (fun k => pwmPin { s with pcnt := s.pcnt + BitVec.ofNat 8 k })).length = s.duty.toNat)
    ∧ (∀ s : State, s.pen = false → pwmPin s = false ∧ moveStep .pclk s = .next s)

/-- R246, R310, R311: the acknowledgement, clearing `IEN` and the index reset drop `IRQ`; setting `IEN` over a pending
swap raises it at once; no instruction but a tick or a store to `ACTRL` raises it, and no move but a timer expiry or a host
store to `ACTRL`. `IRQ` is computed (log entry 14). -/
def Obligations.IrqRisesAndFalls : Prop :=
  (∀ s t : State, hostMove ackSwap s = .next t → irq t = false)
    ∧ (∀ (s t : State) (v : Word), exec (.wrActrl .w32 v) s = .next t →
        irq t = (s.swap && !v.getLsbD 3 && v.getLsbD 2))
    ∧ (∀ (i : Instr) (s t : State), exec i s = .next t → irq s = false → irq t = true →
        i = .tick ∨ ∃ v, i = .wrActrl .w32 v)
    ∧ (∀ (m : Move) (s t : State), moveStep m s = .next t → irq s = false → irq t = true →
        (m = .tclk ∧ s.ten = true ∧ s.tdiv.toNat ≤ s.tcnt.toNat)
          ∨ ∃ v : Word, m = .host { offset := 0x20, acc := .write .w32 v })

/-- R49, R47: what writes the FIFO's state: of the instructions, `SWAP` and `UNDERRUN` are set, `ACTIVE` flipped and `ACUR`
advanced by the tick only; the host clears. Of the moves, by a timer expiry only; the reset input and the host clear. -/
def Obligations.OnlyTheTickAdvancesTheFifo : Prop :=
  (∀ (i : Instr) (s t : State), exec i s = .next t → i ≠ .tick →
    (t.swap = true → s.swap = true) ∧ (t.underrun = true → s.underrun = true)
      ∧ ((t.active = s.active ∧ t.acur = s.acur)
        ∨ (t.active = false ∧ t.acur = 0 ∧ ∃ v, i = .wrActrl .w32 v ∧ v.getLsbD 3 = true)))
  ∧ (∀ (m : Move) (s t : State), moveStep m s = .next t →
    (m = .tclk ∧ s.ten = true ∧ s.tdiv.toNat ≤ s.tcnt.toNat)
      ∨ ((t.swap = true → s.swap = true) ∧ (t.underrun = true → s.underrun = true)
        ∧ ((t.active = s.active ∧ t.acur = s.acur)
          ∨ (t.active = false ∧ t.acur = 0
            ∧ (m = .reset
              ∨ ∃ v : Word, m = .host { offset := 0x20, acc := .write .w32 v } ∧ v.getLsbD 3 = true)))))

/-- R256, R286 to R290: the double-buffer property. A host that runs the streaming sequence from its start, on any block
state whose engine is idle, whatever the card answers and whatever the filesystem's calls read, waiting for `SWAP` either way,
interleaved with engine steps and clocks in any way: what the ticks wrote to `DUTY` is, in order, the beginning of the bytes
brought to the buffers, each a byte the card sent in a READ the filesystem issued or one the host copied; the host counts no
byte before it is brought, and `AREM` is what is counted and not yet emitted; no underrun is recorded; and a stopped host has
emitted every byte, and reports failure exactly when a call it made failed. The host is the reference host of log entry 25. -/
def Obligations.EmittedBytesAreTheSuppliedBytesInOrder : Prop :=
  ∀ (c : StreamConfig) (s : State) (status : Word) (header : List Byte) (position : Nat) (calls : List FsCall)
    (ms : List PlayMove),
    paramsOk s.par = true → c.bufSize = s.par.bufSize → busy s = false → streamReady status header position = true →
      ∀ p, p = Play.run c ms (Play.start c s status header position calls) →
        p.emitted = p.given.take p.emitted.length
          ∧ p.counted ≤ p.given.length
          ∧ (p.counted ≠ 0 → p.counted = p.emitted.length + p.s.arem.toNat)
          ∧ p.s.underrun = false
          ∧ (∀ ok, p.host.result = some ok → p.emitted = p.given ∧ ok = !p.outcomes.any (fun r => r.2))

/-! ### The transport and the card commands -/

/-- R110, R71, R138: an engine step is at most one exchange, in the current clock mode, of a byte R110 lists at the place it
lists it: a frame byte of the card command being sent, or 0xFF; 0xFF in INIT, or 0x00 as a padding or checksum byte of its
close of an open write; 0xFF in READ; 0xFF, or the token at its place, in WRITE open; the source byte whose turn it is in WRITE
data; 0xFF, or 0x00 as a padding or checksum byte, in WRITE close. The exchange is eight clock cycles on the wire, each with
the next bit sent and the next bit received, both most significant first. A host access or a tick sends nothing. -/
def Obligations.EngineSendsOnlyListedBytes : Prop :=
  ∀ (i : Instr) (s t : State), exec i s = .next t →
    t.trace = s.trace
      ∨ ∃ e, t.trace = e :: s.trace ∧ e.fast = s.fast ∧ e.inp = cardByte s
        ∧ wireCycles t = wireCycles s ++ (List.range 8).map (fun k =>
            ⟨e.csa, e.fast, e.out.getLsbD (7 - k), (cardByte s).getLsbD (7 - k)⟩)
        ∧ shiftIn ((exchangeCycles e).map (fun y => y.inp)) = e.inp
        ∧ ((∃ c : CardCmd, i = c.instr
              ∧ (e.out = 0xFF ∨ ∃ ret k, s.eng = .cmd ret c (.byte k) ∧ e.out = c.frame.getD (min k 5) 0))
          ∨ (i = .init ∧ (e.out = 0xFF
              ∨ (e.out = 0x00 ∧ (BlockInv s → s.wopen = true)
                ∧ (s.eng = .launched ∨ s.eng = .closePad .init ∨ ∃ b, s.eng = .closeCrc .init b))))
          ∨ ((∃ a b c d, i = .read a b c d) ∧ e.out = 0xFF)
          ∨ ((∃ a b c, i = .readSkip a b c) ∧ e.out = 0xFF)
          ∨ ((∃ a, i = .writeOpen a) ∧ (e.out = 0xFF ∨ (e.out = 0xFE ∧ s.eng = .openToken)))
          ∨ (∃ n a, i = .writeData n a ∧ ∃ j m, s.eng = .sendData j m ∧ e.out = memRead s (a.toNat + j))
          ∨ (i = .writeClose ∧ (e.out = 0xFF
              ∨ (e.out = 0x00 ∧ (BlockInv s → s.wopen = true)
                ∧ (s.eng = .closePad .op ∨ ∃ b, s.eng = .closeCrc .op b)))))

/-- R150: the steps of sending any of the nine card commands, each with its frame.
That `LASTR1` goes with the last poll exchange is the model's reading (log entry 15). -/
def Obligations.CardCommandSteps : Prop :=
  ∀ (s : State) (ret : Ret) (c : CardCmd),
    (s.eng = .cmd ret c .desel → ∃ t, exec c.instr s = .next t
      ∧ t = { s with csa := false, trace := ⟨false, s.fast, 0xFF, cardByte s⟩ :: s.trace, cardIn := s.cardIn.tail,
                     dout := t.dout, eng := .cmd ret c .sel })
    ∧ (s.eng = .cmd ret c .sel → exec c.instr s = .next { s with csa := true, eng := .cmd ret c .flush })
    ∧ (s.eng = .cmd ret c .flush → ∃ t, exec c.instr s = .next t
      ∧ t = { s with trace := ⟨s.csa, s.fast, 0xFF, cardByte s⟩ :: s.trace, cardIn := s.cardIn.tail,
                     dout := t.dout, eng := .cmd ret c (.byte 0) })
    ∧ (∀ k, k ≤ 5 → s.eng = .cmd ret c (.byte k) → ∃ t, exec c.instr s = .next t
      ∧ t = { s with trace := ⟨s.csa, s.fast, c.frame.getD k 0, cardByte s⟩ :: s.trace, cardIn := s.cardIn.tail,
                     dout := t.dout, eng := if k = 5 then .cmd ret c (.poll 9) else .cmd ret c (.byte (k + 1)) })
    ∧ (∀ left, s.eng = .cmd ret c (.poll left) → ∃ t, exec c.instr s = .next t
      ∧ t = { s with trace := ⟨s.csa, s.fast, 0xFF, cardByte s⟩ :: s.trace, cardIn := s.cardIn.tail,
                     dout := t.dout,
                     lastR1 := if (cardByte s).getLsbD 7 = true ∧ left ≠ 0 then s.lastR1 else cardByte s,
                     eng := if (cardByte s).getLsbD 7 = true ∧ left ≠ 0 then .cmd ret c (.poll (left - 1))
                            else returned s.par ret (cardByte s) })

/-- R150, R163: from its start `send_command` returns after 8 + `k` exchanges, 1 ≤ `k` ≤ 10, with the card selected; it
sends 0xFF twice, the frame, and `k` times 0xFF; the byte it returns, the last received, is in `LASTR1`, and is valid
unless the poll ran out; only the transport's state, `LASTR1` and the sequencer position change. -/
def Obligations.SendCommandReturnsWithinItsCeiling : Prop :=
  ∀ (s : State) (ret : Ret) (c : CardCmd), s.eng = .cmd ret c .desel →
    ∃ (k : Nat) (r : Byte) (t : State), 1 ≤ k ∧ k ≤ 10 ∧ engineRun (9 + k) s = .next t
      ∧ sentBytes s t = ([0xFF, 0xFF] : List Byte) ++ c.frame ++ List.replicate k 0xFF
      ∧ (newEvents s t).map (fun e => e.csa) = false :: List.replicate (7 + k) true
      ∧ (receivedBytes s t).getLast? = some r
      ∧ (r.getLsbD 7 = false ∨ k = 10)
      ∧ (∀ b ∈ ((receivedBytes s t).drop 8).dropLast, b.getLsbD 7 = true)
      ∧ t = { s with csa := true, trace := t.trace, cardIn := t.cardIn, dout := t.dout, lastR1 := r,
                     eng := returned s.par ret r }

/-- R151: ACMD41 is sent after CMD55, and is not sent when CMD55 answers more than idle; the call then returns CMD55's
response. -/
def Obligations.ApplicationCommandFollowsItsLeadingCommand : Prop :=
  ∀ (s : State) (k : Caller) (hcs : Bool), s.eng = callCommand k (.acmd41 hcs) →
    ∃ (k1 : Nat) (n : Nat) (t : State), 1 ≤ k1 ∧ k1 ≤ 10 ∧ engineRun n s = .next t
      ∧ t.eng = resume s.par k t.lastR1
      ∧ ((sentBytes s t = ([0xFF, 0xFF] : List Byte) ++ CardCmd.cmd55.frame ++ List.replicate k1 0xFF ∧ 1 < t.lastR1.toNat)
        ∨ ∃ k2, 1 ≤ k2 ∧ k2 ≤ 10
          ∧ sentBytes s t = ([0xFF, 0xFF] : List Byte) ++ CardCmd.cmd55.frame ++ List.replicate k1 0xFF
              ++ (([0xFF, 0xFF] : List Byte) ++ (CardCmd.acmd41 hcs).frame ++ List.replicate k2 0xFF)
          ∧ ((receivedBytes s t).getD (7 + k1) 0).toNat ≤ 1)

/-- R162: `rd4` receives 4 bytes, assembles them most significant first, and writes `OCR`. -/
def Obligations.TrailingWordRead : Prop :=
  ∀ (s : State) (k : WordFor), s.latch.op = 1 → s.eng = .rd4 k 3 0 →
    ∃ (b0 b1 b2 b3 : Byte) (t : State), engineRun 4 s = .next t
      ∧ newEvents s t = [⟨s.csa, s.fast, 0xFF, b0⟩, ⟨s.csa, s.fast, 0xFF, b1⟩, ⟨s.csa, s.fast, 0xFF, b2⟩,
          ⟨s.csa, s.fast, 0xFF, b3⟩]
      ∧ t = { s with trace := t.trace, cardIn := t.cardIn, dout := t.dout, ocr := b0 ++ b1 ++ b2 ++ b3,
                     eng := match k with
                       | .echo => afterEcho s.par (b0 ++ b1 ++ b2 ++ b3)
                       | .ocr => afterOcr (b0 ++ b1 ++ b2 ++ b3) }

/-! ### INIT -/

/-- R29, R136: no instruction but INIT changes `FAMILY`, `BLOCK` or `FAST`, and no move but an engine step of INIT and the
reset input. -/
def Obligations.OnlyInitChangesTheDescriptorAndTheClockMode : Prop :=
  (∀ (i : Instr) (s t : State), exec i s = .next t → i ≠ .init →
    t.family = s.family ∧ t.block = s.block ∧ t.fast = s.fast)
  ∧ (∀ (m : Move) (s t : State), moveStep m s = .next t →
    (t.family = s.family ∧ t.block = s.block ∧ t.fast = s.fast)
      ∨ m = .reset ∨ (m = .engine ∧ engineInstr s = some .init))

/-- R180, R162, R181, R220: the steps of INIT outside its card commands, the word reads and the close of an open write
included, each with its frame. Which step an update without a bus event goes with is the model's reading (log entries 15 and
17). -/
def Obligations.InitSteps : Prop :=
  ∀ s : State,
    (s.eng = .launched → s.wopen = false → exec .init s = .next
      { s with family := .unknown, block := false, fast := false, csa := false, dout := true, eng := .initDesel })
    ∧ (s.eng = .launched → s.wopen = true → ∃ t, exec .init s = .next t
      ∧ t = { s with family := .unknown, block := false, wcur := if s.wcur = 0 then 0 else s.wcur - 1,
                     trace := ⟨s.csa, s.fast, 0x00, cardByte s⟩ :: s.trace, cardIn := s.cardIn.tail, dout := t.dout,
                     eng := if s.wcur = 0 then .closeCrc .init true
                            else if s.wcur = 1 then .closeCrc .init false else .closePad .init })
    ∧ (s.eng = .closePad .init → ∃ t, exec .init s = .next t
      ∧ t = { s with wcur := s.wcur - 1, trace := ⟨s.csa, s.fast, 0x00, cardByte s⟩ :: s.trace,
                     cardIn := s.cardIn.tail, dout := t.dout,
                     eng := if s.wcur = 1 then .closeCrc .init false else .closePad .init })
    ∧ (∀ b, s.eng = .closeCrc .init b → ∃ t, exec .init s = .next t
      ∧ t = { s with trace := ⟨s.csa, s.fast, 0x00, cardByte s⟩ :: s.trace, cardIn := s.cardIn.tail, dout := t.dout,
                     eng := if b then .closeResp .init else .closeCrc .init true })
    ∧ (s.eng = .closeResp .init → ∃ t, exec .init s = .next t
      ∧ t = { s with trace := ⟨s.csa, s.fast, 0xFF, cardByte s⟩ :: s.trace, cardIn := s.cardIn.tail, dout := t.dout,
                     eng := if cardByte s &&& 0x1F = 0x05 then .closeBusy .init (s.par.retryBusy - 1)
                            else .closeDesel .init .error })
    ∧ (∀ left, s.eng = .closeBusy .init left → ∃ t, exec .init s = .next t
      ∧ t = { s with trace := ⟨s.csa, s.fast, 0xFF, cardByte s⟩ :: s.trace, cardIn := s.cardIn.tail, dout := t.dout,
                     eng := if cardByte s = 0xFF then .closeDesel .init .ok
                            else if left = 0 then .closeDesel .init .error else .closeBusy .init (left - 1) })
    ∧ (∀ r, s.eng = .closeDesel .init r → ∃ t, exec .init s = .next t
      ∧ t = { s with wopen := false, csa := false, trace := ⟨false, s.fast, 0xFF, cardByte s⟩ :: s.trace,
                     cardIn := s.cardIn.tail, dout := t.dout, eng := .initTinit })
    ∧ (s.eng = .initTinit → exec .init s = .next
      { s with fast := false, csa := false, dout := true, eng := .initDesel })
    ∧ (s.eng = .initDesel → ∃ t, exec .init s = .next t
      ∧ t = { s with csa := false, trace := ⟨false, s.fast, 0xFF, cardByte s⟩ :: s.trace, cardIn := s.cardIn.tail,
                     dout := t.dout, eng := .powerUp 9 })
    ∧ (∀ left, s.eng = .powerUp left → ∃ t, exec .init s = .next t
      ∧ t = { s with trace := ⟨s.csa, s.fast, 0xFF, cardByte s⟩ :: s.trace, cardIn := s.cardIn.tail, dout := t.dout,
                     eng := if left = 0 then .cmd (.plain (.initIdle (s.par.retryIdle - 1))) .cmd0 .desel
                            else .powerUp (left - 1) })
    ∧ (∀ k left acc, s.eng = .rd4 k (left + 1) acc → ∃ t, exec .init s = .next t
      ∧ t = { s with trace := ⟨s.csa, s.fast, 0xFF, cardByte s⟩ :: s.trace, cardIn := s.cardIn.tail, dout := t.dout,
                     eng := .rd4 k left (acc.extractLsb' 0 24 ++ cardByte s) })
    ∧ (∀ acc, s.eng = .rd4 .echo 0 acc → ∃ t, exec .init s = .next t
      ∧ t = { s with trace := ⟨s.csa, s.fast, 0xFF, cardByte s⟩ :: s.trace, cardIn := s.cardIn.tail, dout := t.dout,
                     ocr := acc.extractLsb' 0 24 ++ cardByte s,
                     eng := afterEcho s.par (acc.extractLsb' 0 24 ++ cardByte s) })
    ∧ (∀ acc, s.eng = .rd4 .ocr 0 acc → ∃ t, exec .init s = .next t
      ∧ t = { s with trace := ⟨s.csa, s.fast, 0xFF, cardByte s⟩ :: s.trace, cardIn := s.cardIn.tail, dout := t.dout,
                     ocr := acc.extractLsb' 0 24 ++ cardByte s, eng := afterOcr (acc.extractLsb' 0 24 ++ cardByte s) })
    ∧ (∀ fam blk, s.eng = .initEnd fam blk → ∃ t, exec .init s = .next t
      ∧ t = { s with family := fam, block := if fam = .sdv2 then blk else false, csa := false,
                     trace := ⟨false, s.fast, 0xFF, cardByte s⟩ :: s.trace, cardIn := s.cardIn.tail, dout := t.dout,
                     eng := if fam = .unknown then .fin .notRdy else .setFast })
    ∧ (s.eng = .setFast → exec .init s = .next { s with fast := true, eng := .fin .ok })
    ∧ (∀ r, s.eng = .fin r → exec .init s = .next { s with result := r, eng := .idle })

/-- R181, R220, R182, R225: an INIT launched with a write open runs the whole close before step 1, whatever the card answers, in
the clock mode it finds: `WCUR` + 2 bytes 0x00, the data response, after an accepted one the busy wait of at most `RETRY_BUSY`
bytes that the first 0xFF ends, and the deselect. It comes to `tinit()` with `WOPEN` and `WCUR` 0 and `RESULT` not written, and
from its first step on `READY` reads 0. That the descriptor is cleared with that first step is the model's reading (log entry
17). -/
def Obligations.InitClosesAnOpenWriteFirst : Prop :=
  ∀ s : State, s.eng = .launched → s.latch.op = 1 → s.wopen = true → paramsOk s.par = true →
    ∃ (d : Byte) (busyBytes : List Byte) (m : Nat) (last : Byte) (t : State), engineRun m s = .next t
      ∧ sentBytes s t = List.replicate (s.wcur.toNat + 2) 0x00 ++ List.replicate (1 + busyBytes.length + 1) 0xFF
      ∧ (receivedBytes s t).drop (s.wcur.toNat + 2) = d :: busyBytes ++ [last]
      ∧ (∀ e ∈ newEvents s t, e.fast = s.fast)
      ∧ busyBytes.length ≤ s.par.retryBusy
      ∧ (d &&& 0x1F ≠ 0x05 → busyBytes = [])
      ∧ (d &&& 0x1F = 0x05 → busyBytes.getLast? = some 0xFF ∨ busyBytes.length = s.par.retryBusy)
      ∧ (∀ b ∈ busyBytes.dropLast, b ≠ 0xFF)
      ∧ (∀ (j : Nat) (u : State), 1 ≤ j → j ≤ m → engineRun j s = .next u → ready u = false ∧ busy u = true)
      ∧ t = { s with family := .unknown, block := false, wopen := false, wcur := 0, csa := false, eng := .initTinit,
                     trace := t.trace, cardIn := t.cardIn, dout := t.dout }

/-- R183 to R189, R213, R219: where each place of INIT, READ and WRITE open goes on a response. -/
def Obligations.ResponsesDecideTheNextStep : Prop :=
  ∀ (p : Params) (r : Byte),
    (∀ left, resume p (.initIdle left) r =
      if r = 0x01 then .cmd (.plain .initVersion) .cmd8 .desel
      else if left = 0 then .initEnd .unknown false else .cmd (.plain (.initIdle (left - 1))) .cmd0 .desel)
    ∧ (resume p .initVersion r = if r = 0x01 then .rd4 .echo 3 0 else .cmd (.lead false .initProbe) .cmd55 .desel)
    ∧ (∀ left, resume p (.initHcs left) r =
      if r = 0x00 then .cmd (.plain .initOcr) .cmd58 .desel
      else if left = 0 then .initEnd .unknown false else .cmd (.lead true (.initHcs (left - 1))) .cmd55 .desel)
    ∧ (resume p .initOcr r = if r = 0x00 then .rd4 .ocr 3 0 else .initEnd .unknown false)
    ∧ (resume p .initProbe r =
      if r.toNat ≤ 1 then .cmd (.lead false (.initLoop .sdv1 (p.retryInit - 1))) .cmd55 .desel
      else .cmd (.plain (.initLoop .mmcv3 (p.retryInit - 1))) .cmd1 .desel)
    ∧ (∀ left, resume p (.initLoop .sdv1 left) r =
      if r = 0x00 then .cmd (.plain (.initBlockLen .sdv1)) .cmd16 .desel
      else if left = 0 then .initEnd .unknown false
      else .cmd (.lead false (.initLoop .sdv1 (left - 1))) .cmd55 .desel)
    ∧ (∀ left, resume p (.initLoop .mmcv3 left) r =
      if r = 0x00 then .cmd (.plain (.initBlockLen .mmcv3)) .cmd16 .desel
      else if left = 0 then .initEnd .unknown false
      else .cmd (.plain (.initLoop .mmcv3 (left - 1))) .cmd1 .desel)
    ∧ (∀ fam, resume p (.initBlockLen fam) r =
      if r = 0x00 then .initEnd fam false else .initEnd .unknown false)
    ∧ (resume p .read r = if r = 0x00 then .token (p.retryToken - 1) else .desel .error)
    ∧ (resume p .writeOpen r = if r = 0x00 then .gap else .desel .error)
    ∧ (∀ w : Word, afterEcho p w =
      if w.extractLsb' 8 8 = 0x01#8 ∧ w.extractLsb' 0 8 = 0xAA#8 then
        .cmd (.lead true (.initHcs (p.retryInit - 1))) .cmd55 .desel
      else .initEnd .unknown false)
    ∧ (∀ w : Word, afterOcr w =
      if w.getLsbD 30 then .initEnd .sdv2 true else .cmd (.plain (.initBlockLen .sdv2)) .cmd16 .desel)

/-- R180, R190, R191, R305, R348: an INIT with no write open, just launched or come to step 1 after the close of one, ends,
whatever the card answers, within R191's bound on exchanges, all of them in slow mode; it ends deselected, with OK, a family
and fast mode, or with NOTRDY, family Unknown, `BLOCK` 0 and slow mode; and it changes nothing outside the transport, the
descriptor, `LASTR1`, `OCR` and `RESULT`. A launch with no write open runs `tinit()` first (log entry 17). -/
def Obligations.InitEndsWithinItsBound : Prop :=
  ∀ s : State, s.eng = .launched ∨ s.eng = .initTinit → s.latch.op = 1 → s.wopen = false → paramsOk s.par = true →
    ∃ (n : Nat) (t : State), engineRun n s = .next t ∧ t.eng = .idle
      ∧ (newEvents s t).length ≤ 11 + 18 * s.par.retryIdle + 54 + 36 * s.par.retryInit + 18 + 1
      ∧ (∀ e ∈ newEvents s t, e.fast = false)
      ∧ ((t.result = .ok ∧ t.family ≠ .unknown ∧ t.fast = true)
        ∨ (t.result = .notRdy ∧ t.family = .unknown ∧ t.block = false ∧ t.fast = false))
      ∧ (t.block = true → t.family = .sdv2)
      ∧ t = { s with family := t.family, block := t.block, fast := t.fast, csa := false, lastR1 := t.lastR1,
                     ocr := t.ocr, result := t.result, eng := .idle, trace := t.trace, cardIn := t.cardIn,
                     dout := t.dout }

/-- R192: idle-reset answered 0x01, a version check answered 0x01 with the echo, ACMD41 answered 0x00 at once and CMD58
answered 0x00: an operating-condition word with CCS = 1 gives SDv2, block-addressed, in 65 exchanges; one with CCS = 0 and a
CMD16 answered 0x00 give SDv2, byte-addressed, in 74; whatever the ignored bytes are. -/
def Obligations.InitFindsVersion2Cards : Prop :=
  (∀ (s : State) (g0 g1 g2 g3 g4 g5 rest : List Byte) (e0 e1 o0 o1 o2 o3 lead g6 : Byte),
    s.eng = .launched → s.latch.op = 1 → s.wopen = false →
    g0.length = 11 → (∀ g ∈ [g1, g2, g3, g4, g5], g.length = 8) →
    lead.toNat ≤ 1 → o0.getLsbD 6 = true →
    s.cardIn = g0 ++ answers g1 0x01 ++ answers g2 0x01 ++ [e0, e1, 0x01, 0xAA] ++ answers g3 lead ++ answers g4 0x00
      ++ answers g5 0x00 ++ [o0, o1, o2, o3] ++ [g6] ++ rest →
    ∃ (n : Nat) (t : State), engineRun n s = .next t
      ∧ t.eng = .idle ∧ t.result = .ok ∧ t.family = .sdv2 ∧ t.block = true ∧ t.fast = true ∧ t.csa = false
      ∧ t.ocr = o0 ++ o1 ++ o2 ++ o3 ∧ t.lastR1 = 0x00 ∧ t.cardIn = rest ∧ (newEvents s t).length = 65)
  ∧ (∀ (s : State) (g0 g1 g2 g3 g4 g5 g6 rest : List Byte) (e0 e1 o0 o1 o2 o3 lead g7 : Byte),
    s.eng = .launched → s.latch.op = 1 → s.wopen = false →
    g0.length = 11 → (∀ g ∈ [g1, g2, g3, g4, g5, g6], g.length = 8) →
    lead.toNat ≤ 1 → o0.getLsbD 6 = false →
    s.cardIn = g0 ++ answers g1 0x01 ++ answers g2 0x01 ++ [e0, e1, 0x01, 0xAA] ++ answers g3 lead ++ answers g4 0x00
      ++ answers g5 0x00 ++ [o0, o1, o2, o3] ++ answers g6 0x00 ++ [g7] ++ rest →
    ∃ (n : Nat) (t : State), engineRun n s = .next t
      ∧ t.eng = .idle ∧ t.result = .ok ∧ t.family = .sdv2 ∧ t.block = false ∧ t.fast = true ∧ t.csa = false
      ∧ t.ocr = o0 ++ o1 ++ o2 ++ o3 ∧ t.lastR1 = 0x00 ∧ t.cardIn = rest ∧ (newEvents s t).length = 74)

/-- R192: idle-reset answered 0x01 and the version check rejected: with CMD55 rejected, CMD1 answered 0x00 and CMD16
answered 0x00 the card is MMCv3, in 57 exchanges; with the probe at most 0x01, ACMD41 answered 0x00 and CMD16 answered
0x00 it is SDv1, in 75. -/
def Obligations.InitFindsTheOlderFamilies : Prop :=
  (∀ (s : State) (g0 g1 g2 g3 g4 g5 rest : List Byte) (rej lead g6 : Byte),
    s.eng = .launched → s.latch.op = 1 → s.wopen = false →
    g0.length = 11 → (∀ g ∈ [g1, g2, g3, g4, g5], g.length = 8) →
    rej.getLsbD 7 = false → rej ≠ 0x01 → lead.getLsbD 7 = false → 1 < lead.toNat →
    s.cardIn = g0 ++ answers g1 0x01 ++ answers g2 rej ++ answers g3 lead ++ answers g4 0x00 ++ answers g5 0x00
      ++ [g6] ++ rest →
    ∃ (n : Nat) (t : State), engineRun n s = .next t
      ∧ t.eng = .idle ∧ t.result = .ok ∧ t.family = .mmcv3 ∧ t.block = false ∧ t.fast = true ∧ t.cardIn = rest
      ∧ (newEvents s t).length = 57)
  ∧ (∀ (s : State) (g0 g1 g2 g3 g4 g5 g6 g7 rest : List Byte) (rej l1 p l2 g8 : Byte),
    s.eng = .launched → s.latch.op = 1 → s.wopen = false →
    g0.length = 11 → (∀ g ∈ [g1, g2, g3, g4, g5, g6, g7], g.length = 8) →
    rej.getLsbD 7 = false → rej ≠ 0x01 → l1.toNat ≤ 1 → p.toNat ≤ 1 → l2.toNat ≤ 1 →
    s.cardIn = g0 ++ answers g1 0x01 ++ answers g2 rej ++ answers g3 l1 ++ answers g4 p ++ answers g5 l2
      ++ answers g6 0x00 ++ answers g7 0x00 ++ [g8] ++ rest →
    ∃ (n : Nat) (t : State), engineRun n s = .next t
      ∧ t.eng = .idle ∧ t.result = .ok ∧ t.family = .sdv1 ∧ t.block = false ∧ t.fast = true ∧ t.cardIn = rest
      ∧ (newEvents s t).length = 75)

/-! ### READ -/

/-- R212, R313: READ's refusals in their order, each without bus traffic and changing nothing but `RESULT` and `BUSY`.
That a check that fails ends the operation in its own step, which the step counts rest on, is the model's reading (log entry 16). -/
def Obligations.ReadRefusesInOrder : Prop :=
  ∀ s : State, s.eng = .launched → s.latch.op = 2 →
    (s.family = .unknown → engineRun 1 s = .next { s with result := .notRdy, eng := .idle })
    ∧ (s.family ≠ .unknown → s.wopen = true → engineRun 2 s = .next { s with result := .parErr, eng := .idle })
    ∧ (s.family ≠ .unknown → s.wopen = false → 512 < s.latch.off.toNat + s.latch.cnt.toNat →
        engineRun 3 s = .next { s with result := .parErr, eng := .idle })
    ∧ (s.family ≠ .unknown → s.wopen = false → s.latch.off.toNat + s.latch.cnt.toNat ≤ 512 →
        s.latch.den = true → bmemSize s.par < s.latch.addr.toNat + s.latch.cnt.toNat →
        engineRun 4 s = .next { s with result := .parErr, eng := .idle })
    ∧ (s.family ≠ .unknown → s.wopen = false → s.latch.off.toNat + s.latch.cnt.toNat ≤ 512 →
        (s.latch.den = true → s.latch.addr.toNat + s.latch.cnt.toNat ≤ bmemSize s.par) →
        engineRun 4 s = .next { s with
          eng := .cmd (.plain .read)
            (.cmd17 (if s.block then s.latch.arg0 else BitVec.ofNat 32 (s.latch.arg0.toNat * 512))) .desel })

/-- R214 to R216, R300: the steps of READ's token wait, data phase, exit and end, for the form that stores and the form
that discards.
Each is one resumable engine step (log entry 19). -/
def Obligations.ReadSteps : Prop :=
  ∀ (s : State) (sector : Word) (off cnt : BitVec 10) (dest : BAddr),
    (∀ left, s.eng = .token left → ∃ t,
      exec (.read sector off cnt dest) s = .next t ∧ exec (.readSkip sector off cnt) s = .next t
      ∧ t = { s with trace := ⟨s.csa, s.fast, 0xFF, cardByte s⟩ :: s.trace, cardIn := s.cardIn.tail, dout := t.dout,
                     eng := if cardByte s = 0xFF then (if left = 0 then .desel .error else .token (left - 1))
                            else if cardByte s = 0xFE then .packet 0 else .desel .error })
    ∧ (∀ j, s.eng = .packet j → ∃ t, exec (.readSkip sector off cnt) s = .next t
      ∧ t = { s with trace := ⟨s.csa, s.fast, 0xFF, cardByte s⟩ :: s.trace, cardIn := s.cardIn.tail, dout := t.dout,
                     eng := if j + 1 < 514 then .packet (j + 1) else .desel .ok })
    ∧ (∀ j, s.eng = .packet j → ∃ t, exec (.read sector off cnt dest) s = .next t
      ∧ t = { s with trace := ⟨s.csa, s.fast, 0xFF, cardByte s⟩ :: s.trace, cardIn := s.cardIn.tail, dout := t.dout,
                     mem := t.mem, eng := if j + 1 < 514 then .packet (j + 1) else .desel .ok }
      ∧ (∀ a, storeAddress (some dest) off cnt j = some a → a < bmemSize s.par →
          memRead t a = cardByte s ∧ ∀ x, x ≠ a → memRead t x = memRead s x)
      ∧ (storeAddress (some dest) off cnt j = none → ∀ x, memRead t x = memRead s x))
    ∧ (∀ r, s.eng = .desel r → ∃ t,
      exec (.read sector off cnt dest) s = .next t ∧ exec (.readSkip sector off cnt) s = .next t
      ∧ t = { s with csa := false, trace := ⟨false, s.fast, 0xFF, cardByte s⟩ :: s.trace, cardIn := s.cardIn.tail,
                     dout := t.dout, eng := .fin r })
    ∧ (∀ r, s.eng = .fin r →
      exec (.read sector off cnt dest) s = .next { s with result := r, eng := .idle }
      ∧ exec (.readSkip sector off cnt) s = .next { s with result := r, eng := .idle })

/-- R211, R213 to R216, R304: a READ that passes its checks ends whatever the card answers, deselected, with OK or ERROR,
within 18 + `RETRY_TOKEN` + 514 + 1 exchanges. On OK the last 515 exchanges are the packet and the deselect, and byte
`OFFSET + i` of the packet is at `ADDR + i` for each `i` below `COUNT` when a destination is given. No other byte of block
memory changes, and nothing changes but `CSA`, `LASTR1`, `RESULT` and block memory. -/
def Obligations.ReadStoresTheBytesItReceives : Prop :=
  ∀ s : State, s.eng = .launched → s.latch.op = 2 → s.family ≠ .unknown → s.wopen = false → paramsOk s.par = true →
    s.latch.off.toNat + s.latch.cnt.toNat ≤ 512 →
    (s.latch.den = true → s.latch.addr.toNat + s.latch.cnt.toNat ≤ bmemSize s.par) →
    ∃ (n : Nat) (t : State), engineRun n s = .next t ∧ t.eng = .idle
      ∧ (t.result = .ok ∨ t.result = .error)
      ∧ (newEvents s t).length ≤ 18 + s.par.retryToken + 514 + 1
      ∧ (t.result = .ok → 515 ≤ (newEvents s t).length
          ∧ (s.latch.den = true → ∀ i, i < s.latch.cnt.toNat →
              (t.trace[514 - (s.latch.off.toNat + i)]?).map (fun e => e.inp) = some (memRead t (s.latch.addr.toNat + i))))
      ∧ (∀ x, (s.latch.den = false ∨ t.result ≠ .ok ∨ x < s.latch.addr.toNat
            ∨ s.latch.addr.toNat + s.latch.cnt.toNat ≤ x) → memRead t x = memRead s x)
      ∧ t = { s with csa := false, lastR1 := t.lastR1, result := t.result, eng := .idle, mem := t.mem,
                     trace := t.trace, cardIn := t.cardIn, dout := t.dout }

/-! ### WRITE -/

/-- R218: the steps of WRITE data.
That the range check is a step of its own is the model's reading (log entry 16). -/
def Obligations.WriteDataSteps : Prop :=
  ∀ (s : State) (count : Word) (source : BAddr),
    (s.eng = .launched → bmemSize s.par < source.toNat + min count.toNat s.wcur.toNat →
      exec (.writeData count source) s = .next { s with result := .parErr, eng := .idle })
    ∧ (s.eng = .launched → source.toNat + min count.toNat s.wcur.toNat ≤ bmemSize s.par →
      exec (.writeData count source) s = .next { s with
        eng := if min count.toNat s.wcur.toNat = 0 then .fin .ok else .sendData 0 (min count.toNat s.wcur.toNat) })
    ∧ (∀ i n, s.eng = .sendData i n → ∃ t, exec (.writeData count source) s = .next t
      ∧ t = { s with wcur := s.wcur - 1,
                     trace := ⟨s.csa, s.fast, memRead s (source.toNat + i), cardByte s⟩ :: s.trace,
                     cardIn := s.cardIn.tail, dout := t.dout,
                     eng := if i + 1 < n then .sendData (i + 1) n else .fin .ok })
    ∧ (∀ r, s.eng = .fin r → exec (.writeData count source) s = .next { s with result := r, eng := .idle })

/-- R218: WRITE data sends exactly the `n` = min(`ARG0`, `WCUR`) source bytes in order, `WCUR` falls by `n`, the result is
OK, and nothing else changes. -/
def Obligations.WriteDataSendsItsSourceBytes : Prop :=
  ∀ s : State, s.eng = .launched → s.latch.op = 3 → s.latch.den = true →
    s.latch.addr.toNat + min s.latch.arg0.toNat s.wcur.toNat ≤ bmemSize s.par →
    ∃ (n k : Nat) (t : State), n = min s.latch.arg0.toNat s.wcur.toNat ∧ engineRun k s = .next t
      ∧ sentBytes s t = (List.range n).map (fun i => memRead s (s.latch.addr.toNat + i))
      ∧ t.wcur.toNat = s.wcur.toNat - n
      ∧ t = { s with wcur := t.wcur, result := .ok, eng := .idle, trace := t.trace, cardIn := t.cardIn, dout := t.dout }

/-- R219: the steps of WRITE open: the two refusals, the command, the gap byte, the token with which the stream opens.
Which steps the checks and the opening updates go with is the model's reading (log entries 15 and 16). -/
def Obligations.WriteOpenSteps : Prop :=
  ∀ (s : State) (sector : Word),
    (s.eng = .launched → s.family = .unknown →
      exec (.writeOpen sector) s = .next { s with result := .notRdy, eng := .idle })
    ∧ (s.eng = .launched → s.family ≠ .unknown → exec (.writeOpen sector) s = .next { s with eng := .openCheck })
    ∧ (s.eng = .openCheck → s.wopen = true →
      exec (.writeOpen sector) s = .next { s with result := .parErr, eng := .idle })
    ∧ (s.eng = .openCheck → s.wopen = false → exec (.writeOpen sector) s = .next { s with
        eng := .cmd (.plain .writeOpen) (.cmd24 (if s.block then sector else BitVec.ofNat 32 (sector.toNat * 512)))
          .desel })
    ∧ (s.eng = .gap → ∃ t, exec (.writeOpen sector) s = .next t
      ∧ t = { s with trace := ⟨s.csa, s.fast, 0xFF, cardByte s⟩ :: s.trace, cardIn := s.cardIn.tail, dout := t.dout,
                     eng := .openToken })
    ∧ (s.eng = .openToken → ∃ t, exec (.writeOpen sector) s = .next t
      ∧ t = { s with trace := ⟨s.csa, s.fast, 0xFE, cardByte s⟩ :: s.trace, cardIn := s.cardIn.tail, dout := t.dout,
                     wcur := 512, wopen := true, eng := .fin .ok })
    ∧ (∀ r, s.eng = .desel r → ∃ t, exec (.writeOpen sector) s = .next t
      ∧ t = { s with csa := false, trace := ⟨false, s.fast, 0xFF, cardByte s⟩ :: s.trace, cardIn := s.cardIn.tail,
                     dout := t.dout, eng := .fin r })
    ∧ (∀ r, s.eng = .fin r → exec (.writeOpen sector) s = .next { s with result := r, eng := .idle })

/-- R219: a WRITE open that passes its checks ends in one of two ways whatever the card answers: accepted, with the gap
byte and the token sent last, `WCUR` = 512, `WOPEN` = 1 and the card still selected; or refused, with ERROR, `WOPEN` and
`WCUR` unchanged and the card deselected. -/
def Obligations.WriteOpenOpensOrFails : Prop :=
  ∀ s : State, s.eng = .launched → s.latch.op = 3 → s.latch.den = false → s.latch.arg0 ≠ 0 →
    s.family ≠ .unknown → s.wopen = false →
    ∃ (k m : Nat) (t : State), 1 ≤ k ∧ k ≤ 10 ∧ engineRun m s = .next t
      ∧ ((t.result = .ok ∧ t.lastR1 = 0x00 ∧ t.wcur = 512 ∧ t.wopen = true ∧ t.csa = true
          ∧ sentBytes s t = ([0xFF, 0xFF] : List Byte)
              ++ (CardCmd.cmd24 (if s.block then s.latch.arg0 else s.latch.arg0 <<< 9)).frame
              ++ List.replicate k 0xFF ++ ([0xFF, 0xFE] : List Byte))
        ∨ (t.result = .error ∧ t.lastR1 ≠ 0x00 ∧ t.wcur = s.wcur ∧ t.wopen = false ∧ t.csa = false
          ∧ sentBytes s t = ([0xFF, 0xFF] : List Byte)
              ++ (CardCmd.cmd24 (if s.block then s.latch.arg0 else s.latch.arg0 <<< 9)).frame
              ++ List.replicate k 0xFF ++ [0xFF]))
      ∧ t = { s with wcur := t.wcur, wopen := t.wopen, csa := t.csa, lastR1 := t.lastR1, result := t.result,
                     eng := .idle, trace := t.trace, cardIn := t.cardIn, dout := t.dout }

/-- R220: the steps of WRITE close.
Which steps the check and the fall of `WOPEN` go with is the model's reading (log entries 15 and 16). -/
def Obligations.WriteCloseSteps : Prop :=
  ∀ s : State,
    (s.eng = .launched → s.wopen = false → exec .writeClose s = .next { s with result := .parErr, eng := .idle })
    ∧ (s.eng = .launched → s.wopen = true → exec .writeClose s = .next { s with
        eng := if s.wcur = 0 then .closeCrc .op false else .closePad .op })
    ∧ (s.eng = .closePad .op → ∃ t, exec .writeClose s = .next t
      ∧ t = { s with wcur := s.wcur - 1, trace := ⟨s.csa, s.fast, 0x00, cardByte s⟩ :: s.trace,
                     cardIn := s.cardIn.tail, dout := t.dout,
                     eng := if s.wcur = 1 then .closeCrc .op false else .closePad .op })
    ∧ (∀ b, s.eng = .closeCrc .op b → ∃ t, exec .writeClose s = .next t
      ∧ t = { s with trace := ⟨s.csa, s.fast, 0x00, cardByte s⟩ :: s.trace, cardIn := s.cardIn.tail, dout := t.dout,
                     eng := if b then .closeResp .op else .closeCrc .op true })
    ∧ (s.eng = .closeResp .op → ∃ t, exec .writeClose s = .next t
      ∧ t = { s with trace := ⟨s.csa, s.fast, 0xFF, cardByte s⟩ :: s.trace, cardIn := s.cardIn.tail, dout := t.dout,
                     eng := if cardByte s &&& 0x1F = 0x05 then .closeBusy .op (s.par.retryBusy - 1)
                            else .closeDesel .op .error })
    ∧ (∀ left, s.eng = .closeBusy .op left → ∃ t, exec .writeClose s = .next t
      ∧ t = { s with trace := ⟨s.csa, s.fast, 0xFF, cardByte s⟩ :: s.trace, cardIn := s.cardIn.tail, dout := t.dout,
                     eng := if cardByte s = 0xFF then .closeDesel .op .ok
                            else if left = 0 then .closeDesel .op .error else .closeBusy .op (left - 1) })
    ∧ (∀ r, s.eng = .closeDesel .op r → ∃ t, exec .writeClose s = .next t
      ∧ t = { s with wopen := false, csa := false, trace := ⟨false, s.fast, 0xFF, cardByte s⟩ :: s.trace,
                     cardIn := s.cardIn.tail, dout := t.dout, eng := .fin r })
    ∧ (∀ r, s.eng = .fin r → exec .writeClose s = .next { s with result := r, eng := .idle })

/-- R220, R223: a WRITE close of an open write ends whatever the card answers: `WCUR` + 2 bytes 0x00, then the data
response, at most `RETRY_BUSY` busy bytes after an accepted one, and the deselect. The result is OK exactly when the
response was accepted and a busy byte was 0xFF; `WOPEN` and `WCUR` are 0 and the card is deselected in every case. -/
def Obligations.WriteCloseAlwaysEndsTheStream : Prop :=
  ∀ s : State, s.eng = .launched → s.latch.op = 3 → s.latch.den = false → s.latch.arg0 = 0 → s.wopen = true →
    paramsOk s.par = true →
    ∃ (d : Byte) (busyBytes : List Byte) (m : Nat) (last : Byte) (t : State), engineRun m s = .next t
      ∧ sentBytes s t = List.replicate (s.wcur.toNat + 2) 0x00 ++ List.replicate (1 + busyBytes.length + 1) 0xFF
      ∧ (receivedBytes s t).drop (s.wcur.toNat + 2) = d :: busyBytes ++ [last]
      ∧ busyBytes.length ≤ s.par.retryBusy
      ∧ (d &&& 0x1F ≠ 0x05 → busyBytes = [])
      ∧ (t.result = .ok ↔ d &&& 0x1F = 0x05 ∧ busyBytes.getLast? = some 0xFF)
      ∧ (t.result = .ok ∨ t.result = .error)
      ∧ t = { s with wopen := false, wcur := 0, csa := false, result := t.result, eng := .idle,
                     trace := t.trace, cardIn := t.cardIn, dout := t.dout }

/-- R224: a reserved operation ends at the engine's first step with PARERR, no bus traffic and no other change, and the
engine is busy until then. -/
def Obligations.ReservedOperationsEndWithParErr : Prop :=
  (∀ s : State, s.eng = .launched → s.latch.op ≠ 1 → s.latch.op ≠ 2 → s.latch.op ≠ 3 →
      busy s = true ∧ engineMove s = .next { s with result := .parErr, eng := .idle })
    ∧ (∀ s : State, s.eng = .launched →
        exec .reservedOp0 s = .next { s with result := .parErr, eng := .idle }
        ∧ (∀ lo, exec (.reservedOp47 lo) s = .next { s with result := .parErr, eng := .idle })
        ∧ (∀ lo, exec (.reservedOp8F lo) s = .next { s with result := .parErr, eng := .idle }))

/-- R222, R49: of the instructions, `WOPEN` rises only in a WRITE open and falls only in a WRITE close or an INIT; of the
moves, it rises only at an engine step of a WRITE open and falls only at one of a WRITE close or an INIT, or at the reset
input. -/
def Obligations.WopenWriters : Prop :=
  (∀ (i : Instr) (s t : State), exec i s = .next t →
    (s.wopen = false → t.wopen = true → ∃ sector, i = .writeOpen sector)
      ∧ (s.wopen = true → t.wopen = false → i = .writeClose ∨ i = .init))
  ∧ (∀ (m : Move) (s t : State), moveStep m s = .next t →
    (s.wopen = false → t.wopen = true → m = .engine ∧ ∃ sector, engineInstr s = some (.writeOpen sector))
      ∧ (s.wopen = true → t.wopen = false →
        m = .reset ∨ (m = .engine ∧ (engineInstr s = some .writeClose ∨ engineInstr s = some .init))))

/-! ### The host's side -/

/-- R281 to R283: `load_header` returns the data-chunk size of a header that passes every check, and 0 of any other; each
field is at its offset, little-endian. -/
def Obligations.LoadHeaderChecksEveryField : Prop :=
  ∀ h : List Byte,
    (loadHeader h).toNat =
      let b := fun i => (h.getD i 0).toNat
      if 44 ≤ h.length
          ∧ b 0 = 0x52 ∧ b 1 = 0x49 ∧ b 2 = 0x46 ∧ b 3 = 0x46
          ∧ b 8 = 0x57 ∧ b 9 = 0x41 ∧ b 10 = 0x56 ∧ b 11 = 0x45
          ∧ b 12 = 0x66 ∧ b 13 = 0x6D ∧ b 14 = 0x74 ∧ b 15 = 0x20
          ∧ b 16 = 16 ∧ b 17 = 0 ∧ b 18 = 0 ∧ b 19 = 0
          ∧ b 20 = 1 ∧ b 21 = 0 ∧ b 22 = 1 ∧ b 23 = 0
          ∧ 8000 ≤ b 24 + 2 ^ 8 * b 25 + 2 ^ 16 * b 26 + 2 ^ 24 * b 27
          ∧ b 24 + 2 ^ 8 * b 25 + 2 ^ 16 * b 26 + 2 ^ 24 * b 27 ≤ 10000
          ∧ b 34 = 8 ∧ b 35 = 0
      then b 40 + 2 ^ 8 * b 41 + 2 ^ 16 * b 42 + 2 ^ 24 * b 43 else 0

/-- R284: a divisor the host computes lies in 0 to 0xFFFF and makes the tick period a nearest whole number of timer clocks to
the sample period; one in that range whose period is nearer than every other is the one computed; and what a valid header
programs leaves it in `TDIV` uncut. That of two equally near the larger is taken is not stated here (log entry 13). -/
def Obligations.TimerDivisorIsTheNearest : Prop :=
  (∀ fTclk rate d : Nat, timerDivisor fTclk rate = some d →
      d ≤ 0xFFFF ∧ 2 * (d + 1) * rate ≤ 2 * fTclk + rate ∧ 2 * fTclk ≤ 2 * (d + 1) * rate + rate)
    ∧ (∀ fTclk rate d : Nat, d ≤ 0xFFFF → 2 * (d + 1) * rate < 2 * fTclk + rate → 2 * fTclk < 2 * (d + 1) * rate + rate →
        timerDivisor fTclk rate = some d)
    ∧ (∀ (fTclk : Nat) (h : List Byte) (s : State) (d : Nat), headerValid h = true →
        timerDivisor fTclk (field32 h 24).toNat = some d →
        ∃ t, runMoves ((headerAccesses fTclk h).map .host) s = .next t
          ∧ t.tdiv.toNat = d ∧ t.ten = false ∧ t.pen = false ∧ t.ien = false)
end

