-- ==== Sys2Proof/Laws/State.lean ====
section
/-! SUPPORT. One lemma per field and named update of the state: what the update leaves there. -/

namespace Sys2Proof.Machine

/-! `rcv` and `deselect` are rewritten to the exchange they make. -/

@[simp] theorem rcv_eq_xchg (s : State) : rcv s = xchg 0xFF s := rfl
@[simp] theorem deselect_eq_xchg (s : State) : deselect s = xchg 0xFF { s with csa := false } := rfl
@[simp] theorem busError_eq_respond (s : State) : busError s = respond .busError s := rfl
@[simp] theorem ignoreWrite_eq (v : Word) (s : State) : ignoreWrite v s = s := rfl

/-- The next card byte depends on the environment's bytes and the trace only. -/
theorem cardByte_congr {s t : State} (h1 : t.cardIn = s.cardIn) (h2 : t.trace = s.trace) : cardByte t = cardByte s := by
  simp only [cardByte, h1, h2]

/-- Chip-select does not change the byte the card returns next. -/
@[simp] theorem cardByte_csa (s : State) (b : Bool) : cardByte { s with csa := b } = cardByte s := rfl

/-! ### `respond` -/

@[simp] theorem respond_par (r : HostResp) (s : State) : (respond r s).par = s.par := rfl
@[simp] theorem respond_cmdOp (r : HostResp) (s : State) : (respond r s).cmdOp = s.cmdOp := rfl
@[simp] theorem respond_cmdDen (r : HostResp) (s : State) : (respond r s).cmdDen = s.cmdDen := rfl
@[simp] theorem respond_arg0 (r : HostResp) (s : State) : (respond r s).arg0 = s.arg0 := rfl
@[simp] theorem respond_argOffset (r : HostResp) (s : State) : (respond r s).argOffset = s.argOffset := rfl
@[simp] theorem respond_argCount (r : HostResp) (s : State) : (respond r s).argCount = s.argCount := rfl
@[simp] theorem respond_addr (r : HostResp) (s : State) : (respond r s).addr = s.addr := rfl
@[simp] theorem respond_result (r : HostResp) (s : State) : (respond r s).result = s.result := rfl
@[simp] theorem respond_family (r : HostResp) (s : State) : (respond r s).family = s.family := rfl
@[simp] theorem respond_block (r : HostResp) (s : State) : (respond r s).block = s.block := rfl
@[simp] theorem respond_wopen (r : HostResp) (s : State) : (respond r s).wopen = s.wopen := rfl
@[simp] theorem respond_fast (r : HostResp) (s : State) : (respond r s).fast = s.fast := rfl
@[simp] theorem respond_csa (r : HostResp) (s : State) : (respond r s).csa = s.csa := rfl
@[simp] theorem respond_lost (r : HostResp) (s : State) : (respond r s).lost = s.lost := rfl
@[simp] theorem respond_wcur (r : HostResp) (s : State) : (respond r s).wcur = s.wcur := rfl
@[simp] theorem respond_lastR1 (r : HostResp) (s : State) : (respond r s).lastR1 = s.lastR1 := rfl
@[simp] theorem respond_ocr (r : HostResp) (s : State) : (respond r s).ocr = s.ocr := rfl
@[simp] theorem respond_ten (r : HostResp) (s : State) : (respond r s).ten = s.ten := rfl
@[simp] theorem respond_pen (r : HostResp) (s : State) : (respond r s).pen = s.pen := rfl
@[simp] theorem respond_ien (r : HostResp) (s : State) : (respond r s).ien = s.ien := rfl
@[simp] theorem respond_active (r : HostResp) (s : State) : (respond r s).active = s.active := rfl
@[simp] theorem respond_swap (r : HostResp) (s : State) : (respond r s).swap = s.swap := rfl
@[simp] theorem respond_underrun (r : HostResp) (s : State) : (respond r s).underrun = s.underrun := rfl
@[simp] theorem respond_acur (r : HostResp) (s : State) : (respond r s).acur = s.acur := rfl
@[simp] theorem respond_arem (r : HostResp) (s : State) : (respond r s).arem = s.arem := rfl
@[simp] theorem respond_tdiv (r : HostResp) (s : State) : (respond r s).tdiv = s.tdiv := rfl
@[simp] theorem respond_duty (r : HostResp) (s : State) : (respond r s).duty = s.duty := rfl
@[simp] theorem respond_latch (r : HostResp) (s : State) : (respond r s).latch = s.latch := rfl
@[simp] theorem respond_eng (r : HostResp) (s : State) : (respond r s).eng = s.eng := rfl
@[simp] theorem respond_tcnt (r : HostResp) (s : State) : (respond r s).tcnt = s.tcnt := rfl
@[simp] theorem respond_pcnt (r : HostResp) (s : State) : (respond r s).pcnt = s.pcnt := rfl
@[simp] theorem respond_dout (r : HostResp) (s : State) : (respond r s).dout = s.dout := rfl
@[simp] theorem respond_mem (r : HostResp) (s : State) : (respond r s).mem = s.mem := rfl
@[simp] theorem respond_resp (r : HostResp) (s : State) : (respond r s).resp = r := rfl
@[simp] theorem respond_trace (r : HostResp) (s : State) : (respond r s).trace = s.trace := rfl
@[simp] theorem respond_cardIn (r : HostResp) (s : State) : (respond r s).cardIn = s.cardIn := rfl
@[simp] theorem respond_moves (r : HostResp) (s : State) : (respond r s).moves = s.moves := rfl
@[simp] theorem respond_draws (r : HostResp) (s : State) : (respond r s).draws = s.draws := rfl
@[simp] theorem respond_epoch (r : HostResp) (s : State) : (respond r s).epoch = s.epoch := rfl

/-! ### `goto` -/

@[simp] theorem goto_par (p : EnginePos) (s : State) : (goto p s).par = s.par := rfl
@[simp] theorem goto_cmdOp (p : EnginePos) (s : State) : (goto p s).cmdOp = s.cmdOp := rfl
@[simp] theorem goto_cmdDen (p : EnginePos) (s : State) : (goto p s).cmdDen = s.cmdDen := rfl
@[simp] theorem goto_arg0 (p : EnginePos) (s : State) : (goto p s).arg0 = s.arg0 := rfl
@[simp] theorem goto_argOffset (p : EnginePos) (s : State) : (goto p s).argOffset = s.argOffset := rfl
@[simp] theorem goto_argCount (p : EnginePos) (s : State) : (goto p s).argCount = s.argCount := rfl
@[simp] theorem goto_addr (p : EnginePos) (s : State) : (goto p s).addr = s.addr := rfl
@[simp] theorem goto_result (p : EnginePos) (s : State) : (goto p s).result = s.result := rfl
@[simp] theorem goto_family (p : EnginePos) (s : State) : (goto p s).family = s.family := rfl
@[simp] theorem goto_block (p : EnginePos) (s : State) : (goto p s).block = s.block := rfl
@[simp] theorem goto_wopen (p : EnginePos) (s : State) : (goto p s).wopen = s.wopen := rfl
@[simp] theorem goto_fast (p : EnginePos) (s : State) : (goto p s).fast = s.fast := rfl
@[simp] theorem goto_csa (p : EnginePos) (s : State) : (goto p s).csa = s.csa := rfl
@[simp] theorem goto_lost (p : EnginePos) (s : State) : (goto p s).lost = s.lost := rfl
@[simp] theorem goto_wcur (p : EnginePos) (s : State) : (goto p s).wcur = s.wcur := rfl
@[simp] theorem goto_lastR1 (p : EnginePos) (s : State) : (goto p s).lastR1 = s.lastR1 := rfl
@[simp] theorem goto_ocr (p : EnginePos) (s : State) : (goto p s).ocr = s.ocr := rfl
@[simp] theorem goto_ten (p : EnginePos) (s : State) : (goto p s).ten = s.ten := rfl
@[simp] theorem goto_pen (p : EnginePos) (s : State) : (goto p s).pen = s.pen := rfl
@[simp] theorem goto_ien (p : EnginePos) (s : State) : (goto p s).ien = s.ien := rfl
@[simp] theorem goto_active (p : EnginePos) (s : State) : (goto p s).active = s.active := rfl
@[simp] theorem goto_swap (p : EnginePos) (s : State) : (goto p s).swap = s.swap := rfl
@[simp] theorem goto_underrun (p : EnginePos) (s : State) : (goto p s).underrun = s.underrun := rfl
@[simp] theorem goto_acur (p : EnginePos) (s : State) : (goto p s).acur = s.acur := rfl
@[simp] theorem goto_arem (p : EnginePos) (s : State) : (goto p s).arem = s.arem := rfl
@[simp] theorem goto_tdiv (p : EnginePos) (s : State) : (goto p s).tdiv = s.tdiv := rfl
@[simp] theorem goto_duty (p : EnginePos) (s : State) : (goto p s).duty = s.duty := rfl
@[simp] theorem goto_latch (p : EnginePos) (s : State) : (goto p s).latch = s.latch := rfl
@[simp] theorem goto_eng (p : EnginePos) (s : State) : (goto p s).eng = p := rfl
@[simp] theorem goto_tcnt (p : EnginePos) (s : State) : (goto p s).tcnt = s.tcnt := rfl
@[simp] theorem goto_pcnt (p : EnginePos) (s : State) : (goto p s).pcnt = s.pcnt := rfl
@[simp] theorem goto_dout (p : EnginePos) (s : State) : (goto p s).dout = s.dout := rfl
@[simp] theorem goto_mem (p : EnginePos) (s : State) : (goto p s).mem = s.mem := rfl
@[simp] theorem goto_resp (p : EnginePos) (s : State) : (goto p s).resp = s.resp := rfl
@[simp] theorem goto_trace (p : EnginePos) (s : State) : (goto p s).trace = s.trace := rfl
@[simp] theorem goto_cardIn (p : EnginePos) (s : State) : (goto p s).cardIn = s.cardIn := rfl
@[simp] theorem goto_moves (p : EnginePos) (s : State) : (goto p s).moves = s.moves := rfl
@[simp] theorem goto_draws (p : EnginePos) (s : State) : (goto p s).draws = s.draws := rfl
@[simp] theorem goto_epoch (p : EnginePos) (s : State) : (goto p s).epoch = s.epoch := rfl

/-! ### `finish` -/

@[simp] theorem finish_par (r : Result) (s : State) : (finish r s).par = s.par := rfl
@[simp] theorem finish_cmdOp (r : Result) (s : State) : (finish r s).cmdOp = s.cmdOp := rfl
@[simp] theorem finish_cmdDen (r : Result) (s : State) : (finish r s).cmdDen = s.cmdDen := rfl
@[simp] theorem finish_arg0 (r : Result) (s : State) : (finish r s).arg0 = s.arg0 := rfl
@[simp] theorem finish_argOffset (r : Result) (s : State) : (finish r s).argOffset = s.argOffset := rfl
@[simp] theorem finish_argCount (r : Result) (s : State) : (finish r s).argCount = s.argCount := rfl
@[simp] theorem finish_addr (r : Result) (s : State) : (finish r s).addr = s.addr := rfl
@[simp] theorem finish_result (r : Result) (s : State) : (finish r s).result = r := rfl
@[simp] theorem finish_family (r : Result) (s : State) : (finish r s).family = s.family := rfl
@[simp] theorem finish_block (r : Result) (s : State) : (finish r s).block = s.block := rfl
@[simp] theorem finish_wopen (r : Result) (s : State) : (finish r s).wopen = s.wopen := rfl
@[simp] theorem finish_fast (r : Result) (s : State) : (finish r s).fast = s.fast := rfl
@[simp] theorem finish_csa (r : Result) (s : State) : (finish r s).csa = s.csa := rfl
@[simp] theorem finish_lost (r : Result) (s : State) : (finish r s).lost = s.lost := rfl
@[simp] theorem finish_wcur (r : Result) (s : State) : (finish r s).wcur = s.wcur := rfl
@[simp] theorem finish_lastR1 (r : Result) (s : State) : (finish r s).lastR1 = s.lastR1 := rfl
@[simp] theorem finish_ocr (r : Result) (s : State) : (finish r s).ocr = s.ocr := rfl
@[simp] theorem finish_ten (r : Result) (s : State) : (finish r s).ten = s.ten := rfl
@[simp] theorem finish_pen (r : Result) (s : State) : (finish r s).pen = s.pen := rfl
@[simp] theorem finish_ien (r : Result) (s : State) : (finish r s).ien = s.ien := rfl
@[simp] theorem finish_active (r : Result) (s : State) : (finish r s).active = s.active := rfl
@[simp] theorem finish_swap (r : Result) (s : State) : (finish r s).swap = s.swap := rfl
@[simp] theorem finish_underrun (r : Result) (s : State) : (finish r s).underrun = s.underrun := rfl
@[simp] theorem finish_acur (r : Result) (s : State) : (finish r s).acur = s.acur := rfl
@[simp] theorem finish_arem (r : Result) (s : State) : (finish r s).arem = s.arem := rfl
@[simp] theorem finish_tdiv (r : Result) (s : State) : (finish r s).tdiv = s.tdiv := rfl
@[simp] theorem finish_duty (r : Result) (s : State) : (finish r s).duty = s.duty := rfl
@[simp] theorem finish_latch (r : Result) (s : State) : (finish r s).latch = s.latch := rfl
@[simp] theorem finish_eng (r : Result) (s : State) : (finish r s).eng = .idle := rfl
@[simp] theorem finish_tcnt (r : Result) (s : State) : (finish r s).tcnt = s.tcnt := rfl
@[simp] theorem finish_pcnt (r : Result) (s : State) : (finish r s).pcnt = s.pcnt := rfl
@[simp] theorem finish_dout (r : Result) (s : State) : (finish r s).dout = s.dout := rfl
@[simp] theorem finish_mem (r : Result) (s : State) : (finish r s).mem = s.mem := rfl
@[simp] theorem finish_resp (r : Result) (s : State) : (finish r s).resp = s.resp := rfl
@[simp] theorem finish_trace (r : Result) (s : State) : (finish r s).trace = s.trace := rfl
@[simp] theorem finish_cardIn (r : Result) (s : State) : (finish r s).cardIn = s.cardIn := rfl
@[simp] theorem finish_moves (r : Result) (s : State) : (finish r s).moves = s.moves := rfl
@[simp] theorem finish_draws (r : Result) (s : State) : (finish r s).draws = s.draws := rfl
@[simp] theorem finish_epoch (r : Result) (s : State) : (finish r s).epoch = s.epoch := rfl

/-! ### `xchg` -/

@[simp] theorem xchg_par (b : Byte) (s : State) : (xchg b s).par = s.par := rfl
@[simp] theorem xchg_cmdOp (b : Byte) (s : State) : (xchg b s).cmdOp = s.cmdOp := rfl
@[simp] theorem xchg_cmdDen (b : Byte) (s : State) : (xchg b s).cmdDen = s.cmdDen := rfl
@[simp] theorem xchg_arg0 (b : Byte) (s : State) : (xchg b s).arg0 = s.arg0 := rfl
@[simp] theorem xchg_argOffset (b : Byte) (s : State) : (xchg b s).argOffset = s.argOffset := rfl
@[simp] theorem xchg_argCount (b : Byte) (s : State) : (xchg b s).argCount = s.argCount := rfl
@[simp] theorem xchg_addr (b : Byte) (s : State) : (xchg b s).addr = s.addr := rfl
@[simp] theorem xchg_result (b : Byte) (s : State) : (xchg b s).result = s.result := rfl
@[simp] theorem xchg_family (b : Byte) (s : State) : (xchg b s).family = s.family := rfl
@[simp] theorem xchg_block (b : Byte) (s : State) : (xchg b s).block = s.block := rfl
@[simp] theorem xchg_wopen (b : Byte) (s : State) : (xchg b s).wopen = s.wopen := rfl
@[simp] theorem xchg_fast (b : Byte) (s : State) : (xchg b s).fast = s.fast := rfl
@[simp] theorem xchg_csa (b : Byte) (s : State) : (xchg b s).csa = s.csa := rfl
@[simp] theorem xchg_lost (b : Byte) (s : State) : (xchg b s).lost = s.lost := rfl
@[simp] theorem xchg_wcur (b : Byte) (s : State) : (xchg b s).wcur = s.wcur := rfl
@[simp] theorem xchg_lastR1 (b : Byte) (s : State) : (xchg b s).lastR1 = s.lastR1 := rfl
@[simp] theorem xchg_ocr (b : Byte) (s : State) : (xchg b s).ocr = s.ocr := rfl
@[simp] theorem xchg_ten (b : Byte) (s : State) : (xchg b s).ten = s.ten := rfl
@[simp] theorem xchg_pen (b : Byte) (s : State) : (xchg b s).pen = s.pen := rfl
@[simp] theorem xchg_ien (b : Byte) (s : State) : (xchg b s).ien = s.ien := rfl
@[simp] theorem xchg_active (b : Byte) (s : State) : (xchg b s).active = s.active := rfl
@[simp] theorem xchg_swap (b : Byte) (s : State) : (xchg b s).swap = s.swap := rfl
@[simp] theorem xchg_underrun (b : Byte) (s : State) : (xchg b s).underrun = s.underrun := rfl
@[simp] theorem xchg_acur (b : Byte) (s : State) : (xchg b s).acur = s.acur := rfl
@[simp] theorem xchg_arem (b : Byte) (s : State) : (xchg b s).arem = s.arem := rfl
@[simp] theorem xchg_tdiv (b : Byte) (s : State) : (xchg b s).tdiv = s.tdiv := rfl
@[simp] theorem xchg_duty (b : Byte) (s : State) : (xchg b s).duty = s.duty := rfl
@[simp] theorem xchg_latch (b : Byte) (s : State) : (xchg b s).latch = s.latch := rfl
@[simp] theorem xchg_eng (b : Byte) (s : State) : (xchg b s).eng = s.eng := rfl
@[simp] theorem xchg_tcnt (b : Byte) (s : State) : (xchg b s).tcnt = s.tcnt := rfl
@[simp] theorem xchg_pcnt (b : Byte) (s : State) : (xchg b s).pcnt = s.pcnt := rfl
@[simp] theorem xchg_dout (b : Byte) (s : State) : (xchg b s).dout = Config.doutAfter (⟨s.csa, s.fast, b, cardByte s⟩ :: s.trace) := rfl
@[simp] theorem xchg_mem (b : Byte) (s : State) : (xchg b s).mem = s.mem := rfl
@[simp] theorem xchg_resp (b : Byte) (s : State) : (xchg b s).resp = s.resp := rfl
@[simp] theorem xchg_trace (b : Byte) (s : State) : (xchg b s).trace = ⟨s.csa, s.fast, b, cardByte s⟩ :: s.trace := rfl
@[simp] theorem xchg_cardIn (b : Byte) (s : State) : (xchg b s).cardIn = s.cardIn.tail := rfl
@[simp] theorem xchg_moves (b : Byte) (s : State) : (xchg b s).moves = s.moves := rfl
@[simp] theorem xchg_draws (b : Byte) (s : State) : (xchg b s).draws = s.draws := rfl
@[simp] theorem xchg_epoch (b : Byte) (s : State) : (xchg b s).epoch = s.epoch := rfl

/-! ### `select` -/

@[simp] theorem select_par (s : State) : (select s).par = s.par := rfl
@[simp] theorem select_cmdOp (s : State) : (select s).cmdOp = s.cmdOp := rfl
@[simp] theorem select_cmdDen (s : State) : (select s).cmdDen = s.cmdDen := rfl
@[simp] theorem select_arg0 (s : State) : (select s).arg0 = s.arg0 := rfl
@[simp] theorem select_argOffset (s : State) : (select s).argOffset = s.argOffset := rfl
@[simp] theorem select_argCount (s : State) : (select s).argCount = s.argCount := rfl
@[simp] theorem select_addr (s : State) : (select s).addr = s.addr := rfl
@[simp] theorem select_result (s : State) : (select s).result = s.result := rfl
@[simp] theorem select_family (s : State) : (select s).family = s.family := rfl
@[simp] theorem select_block (s : State) : (select s).block = s.block := rfl
@[simp] theorem select_wopen (s : State) : (select s).wopen = s.wopen := rfl
@[simp] theorem select_fast (s : State) : (select s).fast = s.fast := rfl
@[simp] theorem select_csa (s : State) : (select s).csa = true := rfl
@[simp] theorem select_lost (s : State) : (select s).lost = s.lost := rfl
@[simp] theorem select_wcur (s : State) : (select s).wcur = s.wcur := rfl
@[simp] theorem select_lastR1 (s : State) : (select s).lastR1 = s.lastR1 := rfl
@[simp] theorem select_ocr (s : State) : (select s).ocr = s.ocr := rfl
@[simp] theorem select_ten (s : State) : (select s).ten = s.ten := rfl
@[simp] theorem select_pen (s : State) : (select s).pen = s.pen := rfl
@[simp] theorem select_ien (s : State) : (select s).ien = s.ien := rfl
@[simp] theorem select_active (s : State) : (select s).active = s.active := rfl
@[simp] theorem select_swap (s : State) : (select s).swap = s.swap := rfl
@[simp] theorem select_underrun (s : State) : (select s).underrun = s.underrun := rfl
@[simp] theorem select_acur (s : State) : (select s).acur = s.acur := rfl
@[simp] theorem select_arem (s : State) : (select s).arem = s.arem := rfl
@[simp] theorem select_tdiv (s : State) : (select s).tdiv = s.tdiv := rfl
@[simp] theorem select_duty (s : State) : (select s).duty = s.duty := rfl
@[simp] theorem select_latch (s : State) : (select s).latch = s.latch := rfl
@[simp] theorem select_eng (s : State) : (select s).eng = s.eng := rfl
@[simp] theorem select_tcnt (s : State) : (select s).tcnt = s.tcnt := rfl
@[simp] theorem select_pcnt (s : State) : (select s).pcnt = s.pcnt := rfl
@[simp] theorem select_dout (s : State) : (select s).dout = s.dout := rfl
@[simp] theorem select_mem (s : State) : (select s).mem = s.mem := rfl
@[simp] theorem select_resp (s : State) : (select s).resp = s.resp := rfl
@[simp] theorem select_trace (s : State) : (select s).trace = s.trace := rfl
@[simp] theorem select_cardIn (s : State) : (select s).cardIn = s.cardIn := rfl
@[simp] theorem select_moves (s : State) : (select s).moves = s.moves := rfl
@[simp] theorem select_draws (s : State) : (select s).draws = s.draws := rfl
@[simp] theorem select_epoch (s : State) : (select s).epoch = s.epoch := rfl

/-! ### `clearDescriptor` -/

@[simp] theorem clearDescriptor_par (s : State) : (clearDescriptor s).par = s.par := rfl
@[simp] theorem clearDescriptor_cmdOp (s : State) : (clearDescriptor s).cmdOp = s.cmdOp := rfl
@[simp] theorem clearDescriptor_cmdDen (s : State) : (clearDescriptor s).cmdDen = s.cmdDen := rfl
@[simp] theorem clearDescriptor_arg0 (s : State) : (clearDescriptor s).arg0 = s.arg0 := rfl
@[simp] theorem clearDescriptor_argOffset (s : State) : (clearDescriptor s).argOffset = s.argOffset := rfl
@[simp] theorem clearDescriptor_argCount (s : State) : (clearDescriptor s).argCount = s.argCount := rfl
@[simp] theorem clearDescriptor_addr (s : State) : (clearDescriptor s).addr = s.addr := rfl
@[simp] theorem clearDescriptor_result (s : State) : (clearDescriptor s).result = s.result := rfl
@[simp] theorem clearDescriptor_family (s : State) : (clearDescriptor s).family = .unknown := rfl
@[simp] theorem clearDescriptor_block (s : State) : (clearDescriptor s).block = false := rfl
@[simp] theorem clearDescriptor_wopen (s : State) : (clearDescriptor s).wopen = s.wopen := rfl
@[simp] theorem clearDescriptor_fast (s : State) : (clearDescriptor s).fast = s.fast := rfl
@[simp] theorem clearDescriptor_csa (s : State) : (clearDescriptor s).csa = s.csa := rfl
@[simp] theorem clearDescriptor_lost (s : State) : (clearDescriptor s).lost = s.lost := rfl
@[simp] theorem clearDescriptor_wcur (s : State) : (clearDescriptor s).wcur = s.wcur := rfl
@[simp] theorem clearDescriptor_lastR1 (s : State) : (clearDescriptor s).lastR1 = s.lastR1 := rfl
@[simp] theorem clearDescriptor_ocr (s : State) : (clearDescriptor s).ocr = s.ocr := rfl
@[simp] theorem clearDescriptor_ten (s : State) : (clearDescriptor s).ten = s.ten := rfl
@[simp] theorem clearDescriptor_pen (s : State) : (clearDescriptor s).pen = s.pen := rfl
@[simp] theorem clearDescriptor_ien (s : State) : (clearDescriptor s).ien = s.ien := rfl
@[simp] theorem clearDescriptor_active (s : State) : (clearDescriptor s).active = s.active := rfl
@[simp] theorem clearDescriptor_swap (s : State) : (clearDescriptor s).swap = s.swap := rfl
@[simp] theorem clearDescriptor_underrun (s : State) : (clearDescriptor s).underrun = s.underrun := rfl
@[simp] theorem clearDescriptor_acur (s : State) : (clearDescriptor s).acur = s.acur := rfl
@[simp] theorem clearDescriptor_arem (s : State) : (clearDescriptor s).arem = s.arem := rfl
@[simp] theorem clearDescriptor_tdiv (s : State) : (clearDescriptor s).tdiv = s.tdiv := rfl
@[simp] theorem clearDescriptor_duty (s : State) : (clearDescriptor s).duty = s.duty := rfl
@[simp] theorem clearDescriptor_latch (s : State) : (clearDescriptor s).latch = s.latch := rfl
@[simp] theorem clearDescriptor_eng (s : State) : (clearDescriptor s).eng = s.eng := rfl
@[simp] theorem clearDescriptor_tcnt (s : State) : (clearDescriptor s).tcnt = s.tcnt := rfl
@[simp] theorem clearDescriptor_pcnt (s : State) : (clearDescriptor s).pcnt = s.pcnt := rfl
@[simp] theorem clearDescriptor_dout (s : State) : (clearDescriptor s).dout = s.dout := rfl
@[simp] theorem clearDescriptor_mem (s : State) : (clearDescriptor s).mem = s.mem := rfl
@[simp] theorem clearDescriptor_resp (s : State) : (clearDescriptor s).resp = s.resp := rfl
@[simp] theorem clearDescriptor_trace (s : State) : (clearDescriptor s).trace = s.trace := rfl
@[simp] theorem clearDescriptor_cardIn (s : State) : (clearDescriptor s).cardIn = s.cardIn := rfl
@[simp] theorem clearDescriptor_moves (s : State) : (clearDescriptor s).moves = s.moves := rfl
@[simp] theorem clearDescriptor_draws (s : State) : (clearDescriptor s).draws = s.draws := rfl
@[simp] theorem clearDescriptor_epoch (s : State) : (clearDescriptor s).epoch = s.epoch := rfl
@[simp] theorem cardByte_clearDescriptor (s : State) : cardByte (clearDescriptor s) = cardByte s := rfl

/-! ### `tinit` -/

@[simp] theorem tinit_par (s : State) : (tinit s).par = s.par := rfl
@[simp] theorem tinit_cmdOp (s : State) : (tinit s).cmdOp = s.cmdOp := rfl
@[simp] theorem tinit_cmdDen (s : State) : (tinit s).cmdDen = s.cmdDen := rfl
@[simp] theorem tinit_arg0 (s : State) : (tinit s).arg0 = s.arg0 := rfl
@[simp] theorem tinit_argOffset (s : State) : (tinit s).argOffset = s.argOffset := rfl
@[simp] theorem tinit_argCount (s : State) : (tinit s).argCount = s.argCount := rfl
@[simp] theorem tinit_addr (s : State) : (tinit s).addr = s.addr := rfl
@[simp] theorem tinit_result (s : State) : (tinit s).result = s.result := rfl
@[simp] theorem tinit_family (s : State) : (tinit s).family = s.family := rfl
@[simp] theorem tinit_block (s : State) : (tinit s).block = s.block := rfl
@[simp] theorem tinit_wopen (s : State) : (tinit s).wopen = s.wopen := rfl
@[simp] theorem tinit_fast (s : State) : (tinit s).fast = false := rfl
@[simp] theorem tinit_csa (s : State) : (tinit s).csa = false := rfl
@[simp] theorem tinit_lost (s : State) : (tinit s).lost = s.lost := rfl
@[simp] theorem tinit_wcur (s : State) : (tinit s).wcur = s.wcur := rfl
@[simp] theorem tinit_lastR1 (s : State) : (tinit s).lastR1 = s.lastR1 := rfl
@[simp] theorem tinit_ocr (s : State) : (tinit s).ocr = s.ocr := rfl
@[simp] theorem tinit_ten (s : State) : (tinit s).ten = s.ten := rfl
@[simp] theorem tinit_pen (s : State) : (tinit s).pen = s.pen := rfl
@[simp] theorem tinit_ien (s : State) : (tinit s).ien = s.ien := rfl
@[simp] theorem tinit_active (s : State) : (tinit s).active = s.active := rfl
@[simp] theorem tinit_swap (s : State) : (tinit s).swap = s.swap := rfl
@[simp] theorem tinit_underrun (s : State) : (tinit s).underrun = s.underrun := rfl
@[simp] theorem tinit_acur (s : State) : (tinit s).acur = s.acur := rfl
@[simp] theorem tinit_arem (s : State) : (tinit s).arem = s.arem := rfl
@[simp] theorem tinit_tdiv (s : State) : (tinit s).tdiv = s.tdiv := rfl
@[simp] theorem tinit_duty (s : State) : (tinit s).duty = s.duty := rfl
@[simp] theorem tinit_latch (s : State) : (tinit s).latch = s.latch := rfl
@[simp] theorem tinit_eng (s : State) : (tinit s).eng = s.eng := rfl
@[simp] theorem tinit_tcnt (s : State) : (tinit s).tcnt = s.tcnt := rfl
@[simp] theorem tinit_pcnt (s : State) : (tinit s).pcnt = s.pcnt := rfl
@[simp] theorem tinit_dout (s : State) : (tinit s).dout = true := rfl
@[simp] theorem tinit_mem (s : State) : (tinit s).mem = s.mem := rfl
@[simp] theorem tinit_resp (s : State) : (tinit s).resp = s.resp := rfl
@[simp] theorem tinit_trace (s : State) : (tinit s).trace = s.trace := rfl
@[simp] theorem tinit_cardIn (s : State) : (tinit s).cardIn = s.cardIn := rfl
@[simp] theorem tinit_moves (s : State) : (tinit s).moves = s.moves := rfl
@[simp] theorem tinit_draws (s : State) : (tinit s).draws = s.draws := rfl
@[simp] theorem tinit_epoch (s : State) : (tinit s).epoch = s.epoch := rfl

/-! ### `setFastMode` -/

@[simp] theorem setFastMode_par (s : State) : (setFastMode s).par = s.par := rfl
@[simp] theorem setFastMode_cmdOp (s : State) : (setFastMode s).cmdOp = s.cmdOp := rfl
@[simp] theorem setFastMode_cmdDen (s : State) : (setFastMode s).cmdDen = s.cmdDen := rfl
@[simp] theorem setFastMode_arg0 (s : State) : (setFastMode s).arg0 = s.arg0 := rfl
@[simp] theorem setFastMode_argOffset (s : State) : (setFastMode s).argOffset = s.argOffset := rfl
@[simp] theorem setFastMode_argCount (s : State) : (setFastMode s).argCount = s.argCount := rfl
@[simp] theorem setFastMode_addr (s : State) : (setFastMode s).addr = s.addr := rfl
@[simp] theorem setFastMode_result (s : State) : (setFastMode s).result = s.result := rfl
@[simp] theorem setFastMode_family (s : State) : (setFastMode s).family = s.family := rfl
@[simp] theorem setFastMode_block (s : State) : (setFastMode s).block = s.block := rfl
@[simp] theorem setFastMode_wopen (s : State) : (setFastMode s).wopen = s.wopen := rfl
@[simp] theorem setFastMode_fast (s : State) : (setFastMode s).fast = true := rfl
@[simp] theorem setFastMode_csa (s : State) : (setFastMode s).csa = s.csa := rfl
@[simp] theorem setFastMode_lost (s : State) : (setFastMode s).lost = s.lost := rfl
@[simp] theorem setFastMode_wcur (s : State) : (setFastMode s).wcur = s.wcur := rfl
@[simp] theorem setFastMode_lastR1 (s : State) : (setFastMode s).lastR1 = s.lastR1 := rfl
@[simp] theorem setFastMode_ocr (s : State) : (setFastMode s).ocr = s.ocr := rfl
@[simp] theorem setFastMode_ten (s : State) : (setFastMode s).ten = s.ten := rfl
@[simp] theorem setFastMode_pen (s : State) : (setFastMode s).pen = s.pen := rfl
@[simp] theorem setFastMode_ien (s : State) : (setFastMode s).ien = s.ien := rfl
@[simp] theorem setFastMode_active (s : State) : (setFastMode s).active = s.active := rfl
@[simp] theorem setFastMode_swap (s : State) : (setFastMode s).swap = s.swap := rfl
@[simp] theorem setFastMode_underrun (s : State) : (setFastMode s).underrun = s.underrun := rfl
@[simp] theorem setFastMode_acur (s : State) : (setFastMode s).acur = s.acur := rfl
@[simp] theorem setFastMode_arem (s : State) : (setFastMode s).arem = s.arem := rfl
@[simp] theorem setFastMode_tdiv (s : State) : (setFastMode s).tdiv = s.tdiv := rfl
@[simp] theorem setFastMode_duty (s : State) : (setFastMode s).duty = s.duty := rfl
@[simp] theorem setFastMode_latch (s : State) : (setFastMode s).latch = s.latch := rfl
@[simp] theorem setFastMode_eng (s : State) : (setFastMode s).eng = s.eng := rfl
@[simp] theorem setFastMode_tcnt (s : State) : (setFastMode s).tcnt = s.tcnt := rfl
@[simp] theorem setFastMode_pcnt (s : State) : (setFastMode s).pcnt = s.pcnt := rfl
@[simp] theorem setFastMode_dout (s : State) : (setFastMode s).dout = s.dout := rfl
@[simp] theorem setFastMode_mem (s : State) : (setFastMode s).mem = s.mem := rfl
@[simp] theorem setFastMode_resp (s : State) : (setFastMode s).resp = s.resp := rfl
@[simp] theorem setFastMode_trace (s : State) : (setFastMode s).trace = s.trace := rfl
@[simp] theorem setFastMode_cardIn (s : State) : (setFastMode s).cardIn = s.cardIn := rfl
@[simp] theorem setFastMode_moves (s : State) : (setFastMode s).moves = s.moves := rfl
@[simp] theorem setFastMode_draws (s : State) : (setFastMode s).draws = s.draws := rfl
@[simp] theorem setFastMode_epoch (s : State) : (setFastMode s).epoch = s.epoch := rfl

/-! ### `memWrite` and `storeAt` write block memory only -/

@[simp] theorem memWrite_par (a : Nat) (v : Byte) (s : State) : (memWrite a v s).par = s.par := by
  unfold memWrite; split <;> rfl
@[simp] theorem memWrite_cmdOp (a : Nat) (v : Byte) (s : State) : (memWrite a v s).cmdOp = s.cmdOp := by
  unfold memWrite; split <;> rfl
@[simp] theorem memWrite_cmdDen (a : Nat) (v : Byte) (s : State) : (memWrite a v s).cmdDen = s.cmdDen := by
  unfold memWrite; split <;> rfl
@[simp] theorem memWrite_arg0 (a : Nat) (v : Byte) (s : State) : (memWrite a v s).arg0 = s.arg0 := by
  unfold memWrite; split <;> rfl
@[simp] theorem memWrite_argOffset (a : Nat) (v : Byte) (s : State) : (memWrite a v s).argOffset = s.argOffset := by
  unfold memWrite; split <;> rfl
@[simp] theorem memWrite_argCount (a : Nat) (v : Byte) (s : State) : (memWrite a v s).argCount = s.argCount := by
  unfold memWrite; split <;> rfl
@[simp] theorem memWrite_addr (a : Nat) (v : Byte) (s : State) : (memWrite a v s).addr = s.addr := by
  unfold memWrite; split <;> rfl
@[simp] theorem memWrite_result (a : Nat) (v : Byte) (s : State) : (memWrite a v s).result = s.result := by
  unfold memWrite; split <;> rfl
@[simp] theorem memWrite_family (a : Nat) (v : Byte) (s : State) : (memWrite a v s).family = s.family := by
  unfold memWrite; split <;> rfl
@[simp] theorem memWrite_block (a : Nat) (v : Byte) (s : State) : (memWrite a v s).block = s.block := by
  unfold memWrite; split <;> rfl
@[simp] theorem memWrite_wopen (a : Nat) (v : Byte) (s : State) : (memWrite a v s).wopen = s.wopen := by
  unfold memWrite; split <;> rfl
@[simp] theorem memWrite_fast (a : Nat) (v : Byte) (s : State) : (memWrite a v s).fast = s.fast := by
  unfold memWrite; split <;> rfl
@[simp] theorem memWrite_csa (a : Nat) (v : Byte) (s : State) : (memWrite a v s).csa = s.csa := by
  unfold memWrite; split <;> rfl
@[simp] theorem memWrite_lost (a : Nat) (v : Byte) (s : State) : (memWrite a v s).lost = s.lost := by
  unfold memWrite; split <;> rfl
@[simp] theorem memWrite_wcur (a : Nat) (v : Byte) (s : State) : (memWrite a v s).wcur = s.wcur := by
  unfold memWrite; split <;> rfl
@[simp] theorem memWrite_lastR1 (a : Nat) (v : Byte) (s : State) : (memWrite a v s).lastR1 = s.lastR1 := by
  unfold memWrite; split <;> rfl
@[simp] theorem memWrite_ocr (a : Nat) (v : Byte) (s : State) : (memWrite a v s).ocr = s.ocr := by
  unfold memWrite; split <;> rfl
@[simp] theorem memWrite_ten (a : Nat) (v : Byte) (s : State) : (memWrite a v s).ten = s.ten := by
  unfold memWrite; split <;> rfl
@[simp] theorem memWrite_pen (a : Nat) (v : Byte) (s : State) : (memWrite a v s).pen = s.pen := by
  unfold memWrite; split <;> rfl
@[simp] theorem memWrite_ien (a : Nat) (v : Byte) (s : State) : (memWrite a v s).ien = s.ien := by
  unfold memWrite; split <;> rfl
@[simp] theorem memWrite_active (a : Nat) (v : Byte) (s : State) : (memWrite a v s).active = s.active := by
  unfold memWrite; split <;> rfl
@[simp] theorem memWrite_swap (a : Nat) (v : Byte) (s : State) : (memWrite a v s).swap = s.swap := by
  unfold memWrite; split <;> rfl
@[simp] theorem memWrite_underrun (a : Nat) (v : Byte) (s : State) : (memWrite a v s).underrun = s.underrun := by
  unfold memWrite; split <;> rfl
@[simp] theorem memWrite_acur (a : Nat) (v : Byte) (s : State) : (memWrite a v s).acur = s.acur := by
  unfold memWrite; split <;> rfl
@[simp] theorem memWrite_arem (a : Nat) (v : Byte) (s : State) : (memWrite a v s).arem = s.arem := by
  unfold memWrite; split <;> rfl
@[simp] theorem memWrite_tdiv (a : Nat) (v : Byte) (s : State) : (memWrite a v s).tdiv = s.tdiv := by
  unfold memWrite; split <;> rfl
@[simp] theorem memWrite_duty (a : Nat) (v : Byte) (s : State) : (memWrite a v s).duty = s.duty := by
  unfold memWrite; split <;> rfl
@[simp] theorem memWrite_latch (a : Nat) (v : Byte) (s : State) : (memWrite a v s).latch = s.latch := by
  unfold memWrite; split <;> rfl
@[simp] theorem memWrite_eng (a : Nat) (v : Byte) (s : State) : (memWrite a v s).eng = s.eng := by
  unfold memWrite; split <;> rfl
@[simp] theorem memWrite_tcnt (a : Nat) (v : Byte) (s : State) : (memWrite a v s).tcnt = s.tcnt := by
  unfold memWrite; split <;> rfl
@[simp] theorem memWrite_pcnt (a : Nat) (v : Byte) (s : State) : (memWrite a v s).pcnt = s.pcnt := by
  unfold memWrite; split <;> rfl
@[simp] theorem memWrite_dout (a : Nat) (v : Byte) (s : State) : (memWrite a v s).dout = s.dout := by
  unfold memWrite; split <;> rfl
@[simp] theorem memWrite_resp (a : Nat) (v : Byte) (s : State) : (memWrite a v s).resp = s.resp := by
  unfold memWrite; split <;> rfl
@[simp] theorem memWrite_trace (a : Nat) (v : Byte) (s : State) : (memWrite a v s).trace = s.trace := by
  unfold memWrite; split <;> rfl
@[simp] theorem memWrite_cardIn (a : Nat) (v : Byte) (s : State) : (memWrite a v s).cardIn = s.cardIn := by
  unfold memWrite; split <;> rfl
@[simp] theorem memWrite_moves (a : Nat) (v : Byte) (s : State) : (memWrite a v s).moves = s.moves := by
  unfold memWrite; split <;> rfl
@[simp] theorem memWrite_draws (a : Nat) (v : Byte) (s : State) : (memWrite a v s).draws = s.draws := by
  unfold memWrite; split <;> rfl
@[simp] theorem memWrite_epoch (a : Nat) (v : Byte) (s : State) : (memWrite a v s).epoch = s.epoch := by
  unfold memWrite; split <;> rfl

/-! ### The wire -/

/-- Shifting a byte out and shifting it in again, most significant bit first, gives it back (R138). -/
@[simp] theorem shiftIn_shiftOrder (b : Byte) : shiftIn (shiftOrder b) = b := by
  revert b; decide

/-- The bits received in an exchange, shifted in, are the byte received. -/
@[simp] theorem shiftIn_exchangeCycles_inp (e : BusEvent) : shiftIn ((exchangeCycles e).map (fun y => y.inp)) = e.inp :=
  shiftIn_shiftOrder e.inp

/-- The bits sent in an exchange, shifted in at the card, are the byte sent. -/
@[simp] theorem shiftIn_exchangeCycles_out (e : BusEvent) : shiftIn ((exchangeCycles e).map (fun y => y.out)) = e.out :=
  shiftIn_shiftOrder e.out

/-- An event more on the trace is its clock cycles more on the wire. -/
theorem wireCycles_cons {s t : State} {e : BusEvent} (h : t.trace = e :: s.trace) :
    wireCycles t = wireCycles s ++ exchangeCycles e := by
  simp [wireCycles, busTrace, h, List.flatMap_append]

end Sys2Proof.Machine
end

