-- ==== Sys2Proof/Laws/Memory.lean ====
section
/-! SUPPORT. Block memory: read after write, and that a write keeps the canonical form and stays inside. -/

namespace Sys2Proof.Machine

/-! ### Cell lists -/

theorem Memory.find_put_same (m : List Host.Cell) (a : Nat) (v : Byte) : Memory.find (Memory.put m a v) a = some v := by
  induction m with
  | nil => simp [Memory.put, Memory.find]
  | cons c rest ih =>
    obtain ⟨b, w⟩ := c
    by_cases h : a < b
    · simp [Memory.put, Memory.find, h]
    · by_cases h' : a = b <;> simp [Memory.put, Memory.find, h, h', ih]

theorem Memory.find_put_ne (m : List Host.Cell) (a x : Nat) (v : Byte) (h : x ≠ a) :
    Memory.find (Memory.put m a v) x = Memory.find m x := by
  induction m with
  | nil => simp [Memory.put, Memory.find, h]
  | cons c rest ih =>
    obtain ⟨b, w⟩ := c
    by_cases h1 : a < b
    · simp [Memory.put, Memory.find, h1, h]
    · by_cases h2 : a = b
      · subst h2; simp [Memory.put, Memory.find, h]
      · simp [Memory.put, Memory.find, h1, h2, ih]

theorem Memory.above_put (m : List Host.Cell) (a lo : Nat) (v : Byte) (hlo : lo < a) (hm : Memory.above lo m = true) :
    Memory.above lo (Memory.put m a v) = true := by
  cases m with
  | nil => simpa [Memory.put, Memory.above] using hlo
  | cons c rest =>
    obtain ⟨b, w⟩ := c
    simp only [Memory.above, decide_eq_true_eq] at hm
    by_cases h1 : a < b
    · simpa [Memory.put, Memory.above, h1] using hlo
    · by_cases h2 : a = b <;> simp [Memory.put, Memory.above, h1, h2] <;> omega

/-- A write keeps the canonical form. -/
theorem Memory.wf_put (m : List Host.Cell) (a : Nat) (v : Byte) (hm : Memory.wf m = true) :
    Memory.wf (Memory.put m a v) = true := by
  induction m with
  | nil => simp [Memory.put, Memory.wf, Memory.above]
  | cons c rest ih =>
    obtain ⟨b, w⟩ := c
    simp only [Memory.wf, Bool.and_eq_true] at hm
    by_cases h1 : a < b
    · simp only [Memory.put, h1, if_true, Memory.wf, Bool.and_eq_true]
      exact ⟨by simpa [Memory.above] using h1, hm⟩
    · by_cases h2 : a = b
      · subst h2; simp [Memory.put, Memory.wf, hm.1, hm.2]
      · simp only [Memory.put, h1, h2, if_false, Memory.wf, Bool.and_eq_true]
        exact ⟨Memory.above_put _ _ _ _ (by omega) hm.1, ih hm.2⟩

/-- A property of every listed cell survives a write of a cell that has it. -/
theorem Memory.all_put (p : Host.Cell → Bool) (m : List Host.Cell) (a : Nat) (v : Byte) (ha : p (a, v) = true)
    (hm : m.all p = true) : (Memory.put m a v).all p = true := by
  induction m with
  | nil => simp [Memory.put, ha]
  | cons c rest ih =>
    obtain ⟨b, w⟩ := c
    simp only [List.all_cons, Bool.and_eq_true] at hm
    by_cases h1 : a < b
    · simp only [Memory.put, h1, if_true, List.all_cons, ha, hm.1, hm.2, Bool.and_self]
    · by_cases h2 : a = b
      · subst h2; simp only [Memory.put, h1, if_false, if_true, List.all_cons, ha, hm.2, Bool.and_self]
      · simp only [Memory.put, h1, h2, if_false, List.all_cons, hm.1, ih hm.2, Bool.and_self]

/-! ### Reads and writes of the state -/

/-- A read depends on the listed cells and the reset count only. -/
theorem memRead_congr {s t : State} (hm : t.mem = s.mem) (he : t.epoch = s.epoch) (a : Nat) :
    memRead t a = memRead s a := by
  simp only [memRead, hm, he]

theorem memRead_memWrite_same (s : State) (a : Nat) (v : Byte) (h : a < bmemSize s.par) :
    memRead (memWrite a v s) a = v := by
  simp [memRead, memWrite, h, Memory.find_put_same]

theorem memRead_memWrite_ne (s : State) (a x : Nat) (v : Byte) (h : x ≠ a) :
    memRead (memWrite a v s) x = memRead s x := by
  unfold memWrite
  split
  · simp [memRead, Memory.find_put_ne _ _ _ _ h]
  · rfl

/-- A write changes the listed cells only. -/
theorem memWrite_frame (a : Nat) (v : Byte) (s : State) : memWrite a v s = { s with mem := (memWrite a v s).mem } := by
  unfold memWrite; split <;> rfl

theorem memWrite_wf (a : Nat) (v : Byte) (s : State) (h : Memory.wf s.mem = true) :
    Memory.wf (memWrite a v s).mem = true := by
  unfold memWrite; split
  · exact Memory.wf_put _ _ _ h
  · exact h

/-- A write keeps every listed address inside block memory. -/
theorem memWrite_inside (a : Nat) (v : Byte) (s : State)
    (h : s.mem.all (fun c => decide (c.1 < bmemSize s.par)) = true) :
    (memWrite a v s).mem.all (fun c => decide (c.1 < bmemSize s.par)) = true := by
  unfold memWrite; split
  · exact Memory.all_put _ _ _ _ (by simpa) h
  · exact h

theorem memWriteWord_frame (a : Nat) (v : Word) (s : State) :
    memWriteWord a v s = { s with mem := (memWriteWord a v s).mem } := by
  unfold memWriteWord memWrite
  split <;> split <;> split <;> split <;> rfl

theorem memWriteWord_wf (a : Nat) (v : Word) (s : State) (h : Memory.wf s.mem = true) :
    Memory.wf (memWriteWord a v s).mem = true :=
  memWrite_wf _ _ _ (memWrite_wf _ _ _ (memWrite_wf _ _ _ (memWrite_wf _ _ _ h)))

theorem memWriteWord_inside (a : Nat) (v : Word) (s : State)
    (h : s.mem.all (fun c => decide (c.1 < bmemSize s.par)) = true) :
    (memWriteWord a v s).mem.all (fun c => decide (c.1 < bmemSize s.par)) = true := by
  have step : ∀ (t : State) (b : Nat) (w : Byte), t.par = s.par →
      t.mem.all (fun c => decide (c.1 < bmemSize s.par)) = true →
      (memWrite b w t).mem.all (fun c => decide (c.1 < bmemSize s.par)) = true := by
    intro t b w hp ht
    rw [← hp] at ht ⊢
    exact memWrite_inside b w t ht
  unfold memWriteWord
  exact step _ _ _ (by simp only [memWrite_par]) (step _ _ _ (by simp only [memWrite_par])
    (step _ _ _ (by simp only [memWrite_par]) (step _ _ _ rfl h)))

/-- A word write leaves every byte outside its four alone. -/
theorem memRead_memWriteWord_outside (s : State) (a x : Nat) (v : Word) (h : x < a ∨ a + 4 ≤ x) :
    memRead (memWriteWord a v s) x = memRead s x := by
  unfold memWriteWord
  rw [memRead_memWrite_ne _ _ _ _ (by omega), memRead_memWrite_ne _ _ _ _ (by omega),
    memRead_memWrite_ne _ _ _ _ (by omega), memRead_memWrite_ne _ _ _ _ (by omega)]

/-- Each byte of a word write, little-endian. -/
theorem memRead_memWriteWord (s : State) (a : Nat) (v : Word) (h : a + 4 ≤ bmemSize s.par) :
    memRead (memWriteWord a v s) a = v.extractLsb' 0 8
      ∧ memRead (memWriteWord a v s) (a + 1) = v.extractLsb' 8 8
      ∧ memRead (memWriteWord a v s) (a + 2) = v.extractLsb' 16 8
      ∧ memRead (memWriteWord a v s) (a + 3) = v.extractLsb' 24 8 := by
  unfold memWriteWord
  refine ⟨?_, ?_, ?_, ?_⟩
  · rw [memRead_memWrite_ne _ _ _ _ (by omega), memRead_memWrite_ne _ _ _ _ (by omega),
      memRead_memWrite_ne _ _ _ _ (by omega), memRead_memWrite_same _ _ _ (by omega)]
  · rw [memRead_memWrite_ne _ _ _ _ (by omega), memRead_memWrite_ne _ _ _ _ (by omega),
      memRead_memWrite_same _ _ _ (by simp; omega)]
  · rw [memRead_memWrite_ne _ _ _ _ (by omega), memRead_memWrite_same _ _ _ (by simp; omega)]
  · rw [memRead_memWrite_same _ _ _ (by simp; omega)]

theorem reset_memory_wf : Memory.wf State.reset.mem = true := rfl

end Sys2Proof.Machine
end

