-- ==== Sys2Proof/Laws/Engine.lean ====
section
/-! SUPPORT. Spec lemmas about engine moves and runs: which step the engine takes at a position, runs composed, and what a
run added to the trace. -/

namespace Sys2Proof.Machine

/-! ### Every meaning answers a next state -/

theorem exec_next (i : Instr) (s : State) : ∃ t, exec i s = .next t := by
  cases i <;> exact ⟨_, rfl⟩

theorem engineMove_next (s : State) : ∃ t, engineMove s = .next t := by
  unfold engineMove
  cases engineInstr s with
  | none => exact ⟨_, rfl⟩
  | some i => exact exec_next i s

/-! ### The launched operation -/

theorem launchedInstr_cmd_op (l : Latches) :
    (0#23 ++ BitVec.ofBool l.den ++ 0#4 ++ l.op : Word).extractLsb' 0 4 = l.op := by
  ext i hi
  simp only [BitVec.getElem_extractLsb', Nat.zero_add, BitVec.getLsbD_append, hi]
  exact (BitVec.getLsbD_eq_getElem hi)

theorem launchedInstr_cmd_den (l : Latches) :
    (0#23 ++ BitVec.ofBool l.den ++ 0#4 ++ l.op : Word).getLsbD 8 = l.den := by
  simp only [BitVec.getLsbD_append]
  cases l.den <;> rfl

theorem arg1Word_offset (o c : BitVec 10) : (arg1Word o c).extractLsb' 0 10 = o := by
  unfold arg1Word
  ext i hi
  simp only [BitVec.getElem_extractLsb', Nat.zero_add, BitVec.getLsbD_append, hi]
  exact (BitVec.getLsbD_eq_getElem hi)

theorem arg1Word_count (o c : BitVec 10) : (arg1Word o c).extractLsb' 16 10 = c := by
  unfold arg1Word
  ext i hi
  have h1 : ¬ (16 + i < 10) := by omega
  have h2 : ¬ (16 + i - 10 < 6) := by omega
  have h3 : 16 + i - 10 - 6 = i := by omega
  simp only [BitVec.getElem_extractLsb', BitVec.getLsbD_append, h1, h2, h3, hi]
  exact (BitVec.getLsbD_eq_getElem hi)

theorem setWidth_extract_addr (a : BAddr) : (a.setWidth 32).extractLsb' 0 16 = a := by
  ext i hi
  simp [hi, show i < 32 by omega]

/-- Latch `op` 1 is INIT. -/
theorem launchedInstr_init (l : Latches) (h : l.op = 1) : launchedInstr l = .init := by
  unfold launchedInstr decodeOp
  rw [launchedInstr_cmd_op, h]; rfl

/-- Latch `op` 2 is READ, with or without a destination. -/
theorem launchedInstr_read (l : Latches) (h : l.op = 2) :
    launchedInstr l = if l.den then .read l.arg0 l.off l.cnt l.addr else .readSkip l.arg0 l.off l.cnt := by
  unfold launchedInstr decodeOp
  rw [launchedInstr_cmd_op, launchedInstr_cmd_den, arg1Word_offset, arg1Word_count, setWidth_extract_addr, h]; rfl

/-- Latch `op` 3 is WRITE: data, close, or open. -/
theorem launchedInstr_write (l : Latches) (h : l.op = 3) :
    launchedInstr l = if l.den then .writeData l.arg0 l.addr
      else if l.arg0 = 0 then .writeClose else .writeOpen l.arg0 := by
  unfold launchedInstr decodeOp
  rw [launchedInstr_cmd_op, launchedInstr_cmd_den, setWidth_extract_addr, h]; rfl

/-- Every other latch `op` is a reserved operation. -/
theorem launchedInstr_reserved (l : Latches) (h1 : l.op ≠ 1) (h2 : l.op ≠ 2) (h3 : l.op ≠ 3) :
    launchedInstr l = .reservedOp0 ∨ (∃ lo, launchedInstr l = .reservedOp47 lo)
      ∨ ∃ lo, launchedInstr l = .reservedOp8F lo := by
  unfold launchedInstr decodeOp
  rw [launchedInstr_cmd_op]
  generalize l.op = o at h1 h2 h3 ⊢
  have ho : o.toNat < 16 := o.isLt
  have n1 : o.toNat ≠ 1 := fun e => h1 (BitVec.eq_of_toNat_eq (by simpa using e))
  have n2 : o.toNat ≠ 2 := fun e => h2 (BitVec.eq_of_toNat_eq (by simpa using e))
  have n3 : o.toNat ≠ 3 := fun e => h3 (BitVec.eq_of_toNat_eq (by simpa using e))
  split <;> simp_all

/-! ### The engine's move at each position -/

/-- Sending a card command, the engine takes the next step of `send_command`. -/
theorem engineMove_cmd (s : State) (ret : Ret) (c : CardCmd) (ph : CmdPhase) (h : s.eng = .cmd ret c ph) :
    engineMove s = .next (sendStep ret c ph s) := by
  unfold engineMove engineInstr
  rw [h]
  cases c <;>
    simp [CardCmd.instr, exec, execCmd0, execCmd8, execCmd55, execAcmd41, execCmd1, execCmd58, execCmd16, execCmd17,
      execCmd24, cardCommandStep, h]

/-- Away from idle and from a card command, the engine runs the latched operation. -/
theorem engineMove_op (s : State) (h1 : s.eng ≠ .idle) (h2 : ∀ r c p, s.eng ≠ .cmd r c p) :
    engineMove s = exec (launchedInstr s.latch) s := by
  unfold engineMove engineInstr
  cases he : s.eng <;> first | exact absurd he h1 | exact absurd he (h2 _ _ _) | rfl

theorem engineMove_idle (s : State) (h : s.eng = .idle) : engineMove s = .next s := by
  unfold engineMove engineInstr; rw [h]

theorem engineMove_init (s : State) (hl : s.latch.op = 1) (h1 : s.eng ≠ .idle) (h2 : ∀ r c p, s.eng ≠ .cmd r c p) :
    engineMove s = .next (initStep s) := by
  rw [engineMove_op s h1 h2, launchedInstr_init _ hl]; rfl

/-- READ's engine move, the destination present exactly when the latched `DEN` is 1. -/
theorem engineMove_read (s : State) (hl : s.latch.op = 2) (h1 : s.eng ≠ .idle) (h2 : ∀ r c p, s.eng ≠ .cmd r c p) :
    engineMove s = .next (readStep s.latch.arg0 s.latch.off s.latch.cnt
      (if s.latch.den then some s.latch.addr else none) s) := by
  rw [engineMove_op s h1 h2, launchedInstr_read _ hl]
  cases s.latch.den <;> rfl

theorem engineMove_writeData (s : State) (hl : s.latch.op = 3) (hd : s.latch.den = true) (h1 : s.eng ≠ .idle)
    (h2 : ∀ r c p, s.eng ≠ .cmd r c p) : engineMove s = .next (writeDataStep s.latch.arg0 s.latch.addr s) := by
  rw [engineMove_op s h1 h2, launchedInstr_write _ hl, hd]; rfl

theorem engineMove_writeOpen (s : State) (hl : s.latch.op = 3) (hd : s.latch.den = false) (ha : s.latch.arg0 ≠ 0)
    (h1 : s.eng ≠ .idle) (h2 : ∀ r c p, s.eng ≠ .cmd r c p) :
    engineMove s = .next (writeOpenStep s.latch.arg0 s) := by
  rw [engineMove_op s h1 h2, launchedInstr_write _ hl, hd, if_neg (by simp), if_neg ha]; rfl

theorem engineMove_writeClose (s : State) (hl : s.latch.op = 3) (hd : s.latch.den = false) (ha : s.latch.arg0 = 0)
    (h1 : s.eng ≠ .idle) (h2 : ∀ r c p, s.eng ≠ .cmd r c p) : engineMove s = .next (writeCloseStep s) := by
  rw [engineMove_op s h1 h2, launchedInstr_write _ hl, hd, if_neg (by simp), if_pos ha]; rfl

/-! ### Runs -/

@[simp] theorem engineRun_zero (s : State) : engineRun 0 s = .next s := rfl

theorem engineRun_succ (n : Nat) {s t : State} (h : engineMove s = .next t) : engineRun (n + 1) s = engineRun n t := by
  simp only [engineRun, h]

/-- Runs compose. -/
theorem engineRun_add (m n : Nat) {s t : State} (h : engineRun m s = .next t) :
    engineRun (m + n) s = engineRun n t := by
  induction m generalizing s with
  | zero =>
    simp only [engineRun_zero, Host.Outcome.next.injEq] at h
    rw [h, Nat.zero_add]
  | succ k ih =>
    obtain ⟨u, hu⟩ := engineMove_next s
    rw [engineRun_succ k hu] at h
    rw [show k + 1 + n = (k + n) + 1 by omega, engineRun_succ _ hu]
    exact ih h

@[simp] theorem runMoves_nil (s : State) : runMoves [] s = .next s := rfl

theorem runMoves_cons (m : Move) (ms : List Move) {s t : State} (h : moveStep m s = .next t) :
    runMoves (m :: ms) s = runMoves ms t := by
  simp only [runMoves, h]

/-- What a run added to the trace, from the events it put in front. -/
theorem newEvents_of_trace {s t : State} (es : List BusEvent) (h : t.trace = es.reverse ++ s.trace) :
    newEvents s t = es := by
  unfold newEvents busTrace
  rw [h, List.reverse_append, List.reverse_reverse, List.drop_left' (by simp)]

end Sys2Proof.Machine
end

