-- ==== Sys2Proof/Laws/Frames.lean ====
section
/-! SUPPORT. The frame of each shared operation and of each operation's engine step: the fields it may write, every other
field unchanged. -/

namespace Sys2Proof.Machine

/-! ### The host port -/

/-- A register load answers and writes nothing else. -/
theorem regRead_frame (w : Width) (v : Word) (s : State) :
    regRead w v s = { s with resp := (regRead w v s).resp } := by
  cases w <;> rfl

/-- A register store of an accepted width does `f` and answers; of any other it answers a bus error. -/
theorem regWrite_cases (w : Width) (f : State → State) (s : State) :
    (w = .w32 ∧ regWrite w f s = { f s with resp := .done })
      ∨ (w ≠ .w32 ∧ regWrite w f s = { s with resp := .busError }) := by
  cases w <;> first
    | exact .inl ⟨rfl, rfl⟩
    | exact .inr ⟨by decide, rfl⟩

/-- An access of a read-only register answers and writes nothing else. -/
theorem regAccess_ignore_frame (acc : Access) (v : Word) (s : State) :
    regAccess acc v ignoreWrite s = { s with resp := (regAccess acc v ignoreWrite s).resp } := by
  rcases acc with w | ⟨w, x⟩ <;> cases w <;> rfl

/-- An access of a register: a load, a bus error, or an accepted store. -/
theorem regAccess_cases (acc : Access) (v : Word) (f : Word → State → State) (s : State) :
    (regAccess acc v f s = { s with resp := (regAccess acc v f s).resp })
      ∨ ∃ x, acc = .write .w32 x ∧ regAccess acc v f s = { f x s with resp := .done } := by
  rcases acc with w | ⟨w, x⟩
  · exact .inl (by cases w <;> rfl)
  · cases w
    · exact .inl rfl
    · exact .inl rfl
    · exact .inr ⟨x, rfl, rfl⟩
    · exact .inl rfl

theorem reservedOffset_frame (low : Nat) (acc : Access) (s : State) :
    reservedOffset low acc s = { s with resp := (reservedOffset low acc s).resp } := by
  unfold reservedOffset
  split
  · exact regAccess_ignore_frame _ _ _
  · rfl

theorem windowAccess_frame (a : Nat) (acc : Access) (s : State) :
    windowAccess a acc s = { s with mem := (windowAccess a acc s).mem, resp := (windowAccess a acc s).resp } := by
  unfold windowAccess windowWrite
  rcases acc with w | ⟨w, x⟩
  · simp only; split <;> rfl
  · simp only; split
    · cases w
      · simp only; rw [memWrite_frame]; rfl
      · simp only; rw [memWriteWord_frame]; rfl
      · simp only; rw [memWriteWord_frame]; rfl
      · simp only; rw [memWriteWord_frame]; rfl
    · rfl

/-- A load of the window writes no memory. -/
theorem windowAccess_read_frame (a : Nat) (w : Width) (s : State) :
    windowAccess a (.read w) s = { s with resp := (windowAccess a (.read w) s).resp } := by
  unfold windowAccess
  simp only; split <;> rfl

theorem writeCmd_frame (v : Word) (s : State) :
    writeCmd v s = { s with
      cmdOp := (writeCmd v s).cmdOp, cmdDen := (writeCmd v s).cmdDen, latch := (writeCmd v s).latch,
      eng := (writeCmd v s).eng, lost := (writeCmd v s).lost } := by
  unfold writeCmd; split <;> rfl

/-! ### The audio FIFO -/

theorem writeActrl_frame (v : Word) (s : State) :
    writeActrl v s = { s with
      ten := v.getLsbD 0, pen := v.getLsbD 1, ien := v.getLsbD 2, tcnt := (writeActrl v s).tcnt,
      duty := (writeActrl v s).duty, pcnt := (writeActrl v s).pcnt, active := (writeActrl v s).active,
      acur := (writeActrl v s).acur, swap := (writeActrl v s).swap, underrun := (writeActrl v s).underrun } := by
  unfold writeActrl indexReset
  simp only; split <;> rfl

theorem tickStep_frame (s : State) :
    tickStep s = { s with
      underrun := (tickStep s).underrun, swap := (tickStep s).swap, acur := (tickStep s).acur,
      active := (tickStep s).active, duty := (tickStep s).duty, arem := (tickStep s).arem } := by
  unfold tickStep emit afterSwitch switchBuffers
  split
  · rfl
  · simp only; split <;> rfl

/-! ### The engine -/

theorem refuseIf_frame (c : Bool) (r : Result) (p : EnginePos) (s : State) :
    refuseIf c r p s = { s with result := (refuseIf c r p s).result, eng := (refuseIf c r p s).eng } := by
  unfold refuseIf; split <;> rfl

theorem storeAt_frame (a : Option Nat) (v : Byte) (s : State) : storeAt a v s = { s with mem := (storeAt a v s).mem } := by
  unfold storeAt
  split
  · rfl
  · exact memWrite_frame _ _ _

/-- Sending a card command writes the transport, `LASTR1` and the position. -/
theorem cardCommandStep_frame (c : CardCmd) (s : State) :
    cardCommandStep c s = { s with
      csa := (cardCommandStep c s).csa, lastR1 := (cardCommandStep c s).lastR1, eng := (cardCommandStep c s).eng,
      trace := (cardCommandStep c s).trace, cardIn := (cardCommandStep c s).cardIn,
      dout := (cardCommandStep c s).dout } := by
  unfold cardCommandStep
  split
  · split
    · unfold sendStep
      split
      · rfl
      · rfl
      · rfl
      · rfl
      · unfold pollStep
        simp only; split
        · rfl
        · split <;> rfl
    · rfl
  · rfl

/-- INIT's own steps write the descriptor, the transport, the write stream, `OCR`, `RESULT` and the position. -/
theorem initStep_frame (s : State) :
    initStep s = { s with
      family := (initStep s).family, block := (initStep s).block, fast := (initStep s).fast, csa := (initStep s).csa,
      wopen := (initStep s).wopen, wcur := (initStep s).wcur, ocr := (initStep s).ocr, result := (initStep s).result,
      eng := (initStep s).eng, trace := (initStep s).trace, cardIn := (initStep s).cardIn,
      dout := (initStep s).dout } := by
  unfold initStep
  split
  · unfold initStart; split
    · split <;> rfl
    · rfl
  all_goals first
    | rfl
    | (unfold rd4Step; simp only; split <;> rfl)

/-- READ's own steps write `CSA`, block memory, `RESULT` and the position. -/
theorem readStep_frame (sector : Word) (offset count : BitVec 10) (dest : Option BAddr) (s : State) :
    readStep sector offset count dest s = { s with
      csa := (readStep sector offset count dest s).csa, mem := (readStep sector offset count dest s).mem,
      result := (readStep sector offset count dest s).result, eng := (readStep sector offset count dest s).eng,
      trace := (readStep sector offset count dest s).trace, cardIn := (readStep sector offset count dest s).cardIn,
      dout := (readStep sector offset count dest s).dout } := by
  unfold readStep
  split
  case h_6 j _ =>
    unfold packetStep
    simp only; rw [storeAt_frame]; rfl
  all_goals first
    | rfl
    | (rw [refuseIf_frame])

/-- A discarding READ writes no block memory. -/
theorem readStep_none_mem (sector : Word) (offset count : BitVec 10) (s : State) :
    (readStep sector offset count none s).mem = s.mem := by
  unfold readStep
  split
  case h_6 j _ => rfl
  all_goals first
    | rfl
    | (rw [refuseIf_frame])

theorem writeDataStep_frame (count : Word) (source : BAddr) (s : State) :
    writeDataStep count source s = { s with
      wcur := (writeDataStep count source s).wcur, result := (writeDataStep count source s).result,
      eng := (writeDataStep count source s).eng, trace := (writeDataStep count source s).trace,
      cardIn := (writeDataStep count source s).cardIn, dout := (writeDataStep count source s).dout } := by
  unfold writeDataStep
  split
  · unfold writeDataStart; rw [refuseIf_frame]
  all_goals rfl

theorem writeOpenStep_frame (sector : Word) (s : State) :
    writeOpenStep sector s = { s with
      csa := (writeOpenStep sector s).csa, wcur := (writeOpenStep sector s).wcur,
      wopen := (writeOpenStep sector s).wopen, result := (writeOpenStep sector s).result,
      eng := (writeOpenStep sector s).eng, trace := (writeOpenStep sector s).trace,
      cardIn := (writeOpenStep sector s).cardIn, dout := (writeOpenStep sector s).dout } := by
  unfold writeOpenStep
  split
  all_goals first
    | rfl
    | (rw [refuseIf_frame])

theorem writeCloseStep_frame (s : State) :
    writeCloseStep s = { s with
      csa := (writeCloseStep s).csa, wcur := (writeCloseStep s).wcur, wopen := (writeCloseStep s).wopen,
      result := (writeCloseStep s).result, eng := (writeCloseStep s).eng, trace := (writeCloseStep s).trace,
      cardIn := (writeCloseStep s).cardIn, dout := (writeCloseStep s).dout } := by
  unfold writeCloseStep
  split
  all_goals first
    | rfl
    | (rw [refuseIf_frame])

theorem reservedStep_frame (s : State) :
    reservedStep s = { s with result := (reservedStep s).result, eng := (reservedStep s).eng } := by
  unfold reservedStep
  split <;> rfl

end Sys2Proof.Machine
end

