-- ==== Sys2Proof/Laws/PerInstr.lean ====
section
/-! SUPPORT. The statement made for every instruction one by one: its encoding has the format the opcode table gives its
row. -/

namespace Sys2Proof.Laws.EncodesInFormat

/-- The format of an instruction's row in spec/opcode_table.json. -/
def rowFormat (i : Instr) : Format :=
  match i with
  | .init => .hostop
  | .read _ _ _ _ => .hostop
  | .readSkip _ _ _ => .hostop
  | .writeData _ _ => .hostop
  | .writeOpen _ => .hostop
  | .writeClose => .hostop
  | .reservedOp0 => .hostop
  | .reservedOp47 _ => .hostop
  | .reservedOp8F _ => .hostop
  | .wrCmd _ _ => .hostreg
  | .rdCmd _ => .hostreg
  | .arg0 _ => .hostreg
  | .arg1 _ => .hostreg
  | .addr _ => .hostreg
  | .rdStatus _ => .hostreg
  | .wrStatus _ _ => .hostreg
  | .wcur _ => .hostreg
  | .lastr1 _ => .hostreg
  | .ocr _ => .hostreg
  | .rdActrl _ => .hostreg
  | .wrActrl _ _ => .hostreg
  | .rdAstat _ => .hostreg
  | .wrAstatSwap _ _ => .hostreg
  | .wrAstatUnderrun _ _ => .hostreg
  | .acur _ => .hostreg
  | .rdArem _ => .hostreg
  | .wrArem _ _ => .hostreg
  | .aremadd _ => .hostreg
  | .rdTdiv _ => .hostreg
  | .wrTdiv _ _ => .hostreg
  | .rdDuty _ => .hostreg
  | .wrDuty _ _ => .hostreg
  | .param _ => .hostreg
  | .reserved407C _ _ => .hostreg
  | .reserved80FC _ _ => .hostreg
  | .unmapped100 _ _ => .hostreg
  | .unmapped200 _ _ => .hostreg
  | .unmapped400 _ _ => .hostreg
  | .unmapped800 _ _ => .hostreg
  | .unmapped1000 _ _ => .hostreg
  | .unmapped2000 _ _ => .hostreg
  | .unmapped4000 _ _ => .hostreg
  | .unmapped8000 _ _ => .hostreg
  | .bmem _ _ => .hostreg
  | .tick => .event
  | .cmd0 => .frame48
  | .cmd8 => .frame48
  | .cmd55 => .frame48
  | .acmd41 _ => .frame48
  | .cmd1 => .frame48
  | .cmd58 => .frame48
  | .cmd16 => .frame48
  | .cmd17 _ => .frame48
  | .cmd24 _ => .frame48

/-- The encoding of `i` has its row's format. -/
def Statement (i : Instr) : Prop :=
  (encode i).format = rowFormat i

theorem init : Statement (.init) := rfl
theorem read (sector : Word) (offset : BitVec 10) (count : BitVec 10) (dest : BAddr) : Statement (.read sector offset count dest) := rfl
theorem readSkip (sector : Word) (offset : BitVec 10) (count : BitVec 10) : Statement (.readSkip sector offset count) := rfl
theorem writeData (count : Word) (source : BAddr) : Statement (.writeData count source) := rfl
theorem writeOpen (sector : Word) : Statement (.writeOpen sector) := rfl
theorem writeClose : Statement (.writeClose) := rfl
theorem reservedOp0 : Statement (.reservedOp0) := rfl
theorem reservedOp47 (lo : BitVec 2) : Statement (.reservedOp47 lo) := rfl
theorem reservedOp8F (lo : BitVec 3) : Statement (.reservedOp8F lo) := rfl
theorem wrCmd (w : Width) (v : Word) : Statement (.wrCmd w v) := rfl
theorem rdCmd (w : Width) : Statement (.rdCmd w) := rfl
theorem arg0 (acc : Access) : Statement (.arg0 acc) := rfl
theorem arg1 (acc : Access) : Statement (.arg1 acc) := rfl
theorem addr (acc : Access) : Statement (.addr acc) := rfl
theorem rdStatus (w : Width) : Statement (.rdStatus w) := rfl
theorem wrStatus (w : Width) (v : Word) : Statement (.wrStatus w v) := rfl
theorem wcur (acc : Access) : Statement (.wcur acc) := rfl
theorem lastr1 (acc : Access) : Statement (.lastr1 acc) := rfl
theorem ocr (acc : Access) : Statement (.ocr acc) := rfl
theorem rdActrl (w : Width) : Statement (.rdActrl w) := rfl
theorem wrActrl (w : Width) (v : Word) : Statement (.wrActrl w v) := rfl
theorem rdAstat (w : Width) : Statement (.rdAstat w) := rfl
theorem wrAstatSwap (w : Width) (v : Word) : Statement (.wrAstatSwap w v) := rfl
theorem wrAstatUnderrun (w : Width) (v : Word) : Statement (.wrAstatUnderrun w v) := rfl
theorem acur (acc : Access) : Statement (.acur acc) := rfl
theorem rdArem (w : Width) : Statement (.rdArem w) := rfl
theorem wrArem (w : Width) (v : Word) : Statement (.wrArem w v) := rfl
theorem aremadd (acc : Access) : Statement (.aremadd acc) := rfl
theorem rdTdiv (w : Width) : Statement (.rdTdiv w) := rfl
theorem wrTdiv (w : Width) (v : Word) : Statement (.wrTdiv w v) := rfl
theorem rdDuty (w : Width) : Statement (.rdDuty w) := rfl
theorem wrDuty (w : Width) (v : Word) : Statement (.wrDuty w v) := rfl
theorem param (acc : Access) : Statement (.param acc) := rfl
theorem reserved407C (lo : BitVec 6) (acc : Access) : Statement (.reserved407C lo acc) := rfl
theorem reserved80FC (lo : BitVec 7) (acc : Access) : Statement (.reserved80FC lo acc) := rfl
theorem unmapped100 (lo : BitVec 8) (acc : Access) : Statement (.unmapped100 lo acc) := rfl
theorem unmapped200 (lo : BitVec 9) (acc : Access) : Statement (.unmapped200 lo acc) := rfl
theorem unmapped400 (lo : BitVec 10) (acc : Access) : Statement (.unmapped400 lo acc) := rfl
theorem unmapped800 (lo : BitVec 11) (acc : Access) : Statement (.unmapped800 lo acc) := rfl
theorem unmapped1000 (lo : BitVec 12) (acc : Access) : Statement (.unmapped1000 lo acc) := rfl
theorem unmapped2000 (lo : BitVec 13) (acc : Access) : Statement (.unmapped2000 lo acc) := rfl
theorem unmapped4000 (lo : BitVec 14) (acc : Access) : Statement (.unmapped4000 lo acc) := rfl
theorem unmapped8000 (lo : BitVec 15) (acc : Access) : Statement (.unmapped8000 lo acc) := rfl
theorem bmem (a : BAddr) (acc : Access) : Statement (.bmem a acc) := rfl
theorem tick : Statement (.tick) := rfl
theorem cmd0 : Statement (.cmd0) := rfl
theorem cmd8 : Statement (.cmd8) := rfl
theorem cmd55 : Statement (.cmd55) := rfl
theorem acmd41 (hcs : Bool) : Statement (.acmd41 hcs) := rfl
theorem cmd1 : Statement (.cmd1) := rfl
theorem cmd58 : Statement (.cmd58) := rfl
theorem cmd16 : Statement (.cmd16) := rfl
theorem cmd17 (a : Word) : Statement (.cmd17 a) := rfl
theorem cmd24 (a : Word) : Statement (.cmd24 a) := rfl

end Sys2Proof.Laws.EncodesInFormat
end

