-- ==== Sys2Proof/Laws/SendCommand.lean ====
section
/-! SUPPORT. The spec lemmas of the response poll and of a whole `send_command` run (R150): what they exchange and what
they leave, for every card. -/

namespace Sys2Proof.Machine

/-- What a poll that ended with `r` exchanged: `k` of at most `most` bytes 0xFF with the card selected, all but the last
received byte invalid, and the last valid unless the poll ran out. -/
structure PollEvents (fast : Bool) (most k : Nat) (r : Byte) (es : List BusEvent) : Prop where
  pos : 1 ≤ k
  bound : k ≤ most
  length : es.length = k
  events : ∀ e ∈ es, e.csa = true ∧ e.out = 0xFF ∧ e.fast = fast
  last : es.getLast?.map (fun e => e.inp) = some r
  ended : r.getLsbD 7 = false ∨ k = most
  invalid : ∀ e ∈ es.dropLast, e.inp.getLsbD 7 = true

/-- The poll, from any number of exchanges left. -/
theorem poll_run (ret : Ret) (c : CardCmd) (left : Nat) (s : State) (he : s.eng = .cmd ret c (.poll left))
    (hc : s.csa = true) :
    ∃ (k : Nat) (r : Byte) (es : List BusEvent) (t : State), PollEvents s.fast (left + 1) k r es
      ∧ engineRun k s = .next t
      ∧ t = { s with trace := es.reverse ++ s.trace, cardIn := t.cardIn, dout := t.dout, lastR1 := r,
                     eng := returned s.par ret r } := by
  induction left generalizing s with
  | zero =>
    refine ⟨1, cardByte s, [⟨true, s.fast, 0xFF, cardByte s⟩], _,
      ⟨by omega, by omega, rfl, by simp, by simp, .inr rfl, by simp⟩,
      by rw [engineRun_succ 0 (engineMove_cmd s _ _ _ he)]; rfl, ?_⟩
    simp only [sendStep, pollStep]
    split <;> simp [goto, xchg, hc]
  | succ n ih =>
    by_cases hv : validR1 (cardByte s) = true
    · refine ⟨1, cardByte s, [⟨true, s.fast, 0xFF, cardByte s⟩], _,
        ⟨by omega, by omega, rfl, by simp, by simp, .inl (by simpa [validR1] using hv), by simp⟩,
        by rw [engineRun_succ 0 (engineMove_cmd s _ _ _ he)]; rfl, ?_⟩
      simp only [sendStep, pollStep, hv]
      simp [goto, xchg, hc]
    · have hs : sendStep ret c (.poll (n + 1)) s = goto (.cmd ret c (.poll n)) (rcv s) := by
        simp [sendStep, pollStep, hv]
      obtain ⟨k, r, es, t, p, hrun, ht⟩ := ih (goto (.cmd ret c (.poll n)) (rcv s)) rfl (by simp [hc])
      have hne : es ≠ [] := by
        rintro rfl
        have := p.length; have := p.pos
        simp at *; omega
      refine ⟨k + 1, r, ⟨true, s.fast, 0xFF, cardByte s⟩ :: es, t, ⟨by omega, by have := p.bound; omega,
        by simp [p.length], ?_, ?_, ?_, ?_⟩, ?_, ?_⟩
      · intro e hm
        rcases List.mem_cons.mp hm with rfl | hm
        · simp
        · simpa using p.events e hm
      · rw [List.getLast?_cons_of_ne_nil hne]; exact p.last
      · exact p.ended.imp_right (by omega)
      · intro e hm
        rw [List.dropLast_cons_of_ne_nil hne] at hm
        rcases List.mem_cons.mp hm with rfl | hm
        · simpa [validR1] using hv
        · exact p.invalid e hm
      · rw [engineRun_succ k (engineMove_cmd s _ _ _ he), hs, hrun]
      · rw [ht]; simp [goto, xchg, hc]

/-- The byte before the poll: a state of the run after the events `es`, the card selected. -/
def sending (s : State) (es : List BusEvent) (ci : List Byte) (d : Bool) (p : EnginePos) : State :=
  { s with csa := true, trace := es ++ s.trace, cardIn := ci, dout := d, eng := p }

theorem sending_byte (s : State) (ret : Ret) (c : CardCmd) (es : List BusEvent) (ci : List Byte) (d : Bool) (j : Nat)
    (p : EnginePos)
    (hp : (if j < 5 then EnginePos.cmd ret c (.byte (j + 1)) else .cmd ret c (.poll (pollR1 - 1))) = p) :
    ∃ i ci' d', engineMove (sending s es ci d (.cmd ret c (.byte j)))
      = .next (sending s (⟨true, s.fast, c.frameByte j, i⟩ :: es) ci' d' p) := by
  subst hp
  exact ⟨_, _, _, by rw [engineMove_cmd _ ret c (.byte j) rfl]; rfl⟩

/-- `send_command` up to its poll: two dummy exchanges, the second with the card selected, and the 6 frame bytes. -/
theorem send_prefix (s : State) (ret : Ret) (c : CardCmd) (he : s.eng = .cmd ret c .desel) :
    ∃ (i0 i1 i2 i3 i4 i5 i6 i7 : Byte) (ci : List Byte) (d : Bool), engineRun 9 s = .next (sending s
      [⟨true, s.fast, c.frameByte 5, i7⟩, ⟨true, s.fast, c.frameByte 4, i6⟩, ⟨true, s.fast, c.frameByte 3, i5⟩,
        ⟨true, s.fast, c.frameByte 2, i4⟩, ⟨true, s.fast, c.frameByte 1, i3⟩, ⟨true, s.fast, c.frameByte 0, i2⟩,
        ⟨true, s.fast, 0xFF, i1⟩, ⟨false, s.fast, 0xFF, i0⟩] ci d (.cmd ret c (.poll 9))) := by
  let s1 : State := goto (.cmd ret c .sel) (deselect s)
  have m1 : engineMove s = .next s1 := engineMove_cmd s _ _ _ he
  have m2 : engineMove s1 = .next (sending s [⟨false, s.fast, 0xFF, cardByte s⟩] s1.cardIn s1.dout
      (.cmd ret c .flush)) := engineMove_cmd s1 ret c .sel rfl
  obtain ⟨i1, ci1, d1, m3⟩ : ∃ i ci' d', engineMove (sending s [⟨false, s.fast, 0xFF, cardByte s⟩] s1.cardIn s1.dout
      (.cmd ret c .flush)) = .next (sending s [⟨true, s.fast, 0xFF, i⟩, ⟨false, s.fast, 0xFF, cardByte s⟩] ci' d'
        (.cmd ret c (.byte 0))) := ⟨_, _, _, by rw [engineMove_cmd _ ret c .flush rfl]; rfl⟩
  obtain ⟨i2, ci2, d2, m4⟩ := sending_byte s ret c [⟨true, s.fast, 0xFF, i1⟩, ⟨false, s.fast, 0xFF, cardByte s⟩] ci1 d1
    0 (.cmd ret c (.byte 1)) rfl
  obtain ⟨i3, ci3, d3, m5⟩ := sending_byte s ret c
    [⟨true, s.fast, c.frameByte 0, i2⟩, ⟨true, s.fast, 0xFF, i1⟩, ⟨false, s.fast, 0xFF, cardByte s⟩]
    ci2 d2 1 (.cmd ret c (.byte 2)) rfl
  obtain ⟨i4, ci4, d4, m6⟩ := sending_byte s ret c
    [⟨true, s.fast, c.frameByte 1, i3⟩, ⟨true, s.fast, c.frameByte 0, i2⟩, ⟨true, s.fast, 0xFF, i1⟩,
      ⟨false, s.fast, 0xFF, cardByte s⟩]
    ci3 d3 2 (.cmd ret c (.byte 3)) rfl
  obtain ⟨i5, ci5, d5, m7⟩ := sending_byte s ret c
    [⟨true, s.fast, c.frameByte 2, i4⟩, ⟨true, s.fast, c.frameByte 1, i3⟩,
      ⟨true, s.fast, c.frameByte 0, i2⟩, ⟨true, s.fast, 0xFF, i1⟩, ⟨false, s.fast, 0xFF, cardByte s⟩]
    ci4 d4 3 (.cmd ret c (.byte 4)) rfl
  obtain ⟨i6, ci6, d6, m8⟩ := sending_byte s ret c
    [⟨true, s.fast, c.frameByte 3, i5⟩, ⟨true, s.fast, c.frameByte 2, i4⟩,
      ⟨true, s.fast, c.frameByte 1, i3⟩, ⟨true, s.fast, c.frameByte 0, i2⟩, ⟨true, s.fast, 0xFF, i1⟩,
      ⟨false, s.fast, 0xFF, cardByte s⟩]
    ci5 d5 4 (.cmd ret c (.byte 5)) rfl
  obtain ⟨i7, ci7, d7, m9⟩ := sending_byte s ret c
    [⟨true, s.fast, c.frameByte 4, i6⟩, ⟨true, s.fast, c.frameByte 3, i5⟩,
      ⟨true, s.fast, c.frameByte 2, i4⟩, ⟨true, s.fast, c.frameByte 1, i3⟩,
      ⟨true, s.fast, c.frameByte 0, i2⟩, ⟨true, s.fast, 0xFF, i1⟩, ⟨false, s.fast, 0xFF, cardByte s⟩]
    ci6 d6 5 (.cmd ret c (.poll 9)) rfl
  refine ⟨cardByte s, i1, i2, i3, i4, i5, i6, i7, ci7, d7, ?_⟩
  rw [engineRun_succ 8 m1, engineRun_succ 7 m2, engineRun_succ 6 m3, engineRun_succ 5 m4, engineRun_succ 4 m5,
    engineRun_succ 3 m6, engineRun_succ 2 m7, engineRun_succ 1 m8, engineRun_succ 0 m9]
  rfl

end Sys2Proof.Machine
end

