-- ==== Sys2Proof/Laws/Stream.lean ====
section
/-! SUPPORT. What the host's accesses, its polls and `result` do, and what the shared pieces of the streaming sequence give. -/

namespace Sys2Proof.Machine

/-! ### The host's accesses (R112, R287 to R289) -/

/-- An access that decodes runs the instruction it decodes to. -/
theorem hostMove_decoded {r : HostReq} {i : Instr} (h : decode (.access r) = .ok i) (s : State) :
    hostMove r s = exec i s := by
  unfold hostMove; rw [h]

/-- Nothing of a 32-bit value is cut. -/
@[simp] theorem trim_w32 (v : Word) : Width.w32.trim v = v := by simp [Width.trim]

theorem decode_readAstat : decode (.access (rd 0x24)) = .ok (.rdAstat .w32) := rfl

theorem decode_setArem (v : Word) : decode (.access (wr 0x2C v)) = .ok (.wrArem .w32 v) := by
  simp [decode, decodeAccess, wr, Access.trim, decodeRegister]

theorem decode_remAdd (v : Word) : decode (.access (remAdd v)) = .ok (.aremadd (.write .w32 v)) := by
  simp [decode, decodeAccess, remAdd, wr, Access.trim, decodeRegister]

theorem decode_setActrl (v : Word) : decode (.access (wr 0x20 v)) = .ok (.wrActrl .w32 v) := by
  simp [decode, decodeAccess, wr, Access.trim, decodeRegister]

/-- `rd ASTAT` answers with the register and changes nothing else. -/
theorem hostMove_readAstat (s : State) : hostMove (rd 0x24) s = .next { s with resp := .data (astatWord s) } :=
  hostMove_decoded decode_readAstat s

/-- `wr AREM, v` replaces the count. -/
theorem hostMove_setArem (v : Word) (s : State) :
    hostMove (wr 0x2C v) s = .next { s with arem := v, resp := .done } :=
  hostMove_decoded (decode_setArem v) s

/-- `rem_add v` adds to the count. -/
theorem hostMove_remAdd (v : Word) (s : State) :
    hostMove (remAdd v) s = .next { s with arem := s.arem + v, resp := .done } :=
  hostMove_decoded (decode_remAdd v) s

/-- A store to `ACTRL`. -/
theorem hostMove_setActrl (v : Word) (s : State) :
    hostMove (wr 0x20 v) s = .next { writeActrl v s with resp := .done } :=
  hostMove_decoded (decode_setActrl v) s

/-! ### A host program (R112) -/

theorem decode_readStatus : decode (.access (rd 0x10)) = .ok (.rdStatus .w32) := rfl

/-- `rd STATUS` answers with the register and changes nothing else. -/
theorem hostMove_readStatus (s : State) : hostMove (rd 0x10) s = .next { s with resp := .data (statusWord s) } :=
  hostMove_decoded decode_readStatus s

/-- A poll is repeated exactly while the value it read does not satisfy it. -/
theorem poll_repeats_iff (off : Nat) (mask value t : Word) :
    (HostLine.poll off mask value).repeats (.data t) = true ↔ t &&& mask ≠ value := by
  simp [HostLine.repeats, HostResp.value, pollEnds]

/-- Bit 0 of `STATUS` is `BUSY` (R27). -/
theorem statusWord_bit0 (s : State) : (statusWord s).getLsbD 0 = busy s := by
  have h : ∀ (v : BitVec 31) (b : Bool), (v ++ BitVec.ofBool b).getLsbD 0 = b := by
    intro v b
    rw [BitVec.getLsbD_append, if_pos (by omega)]
    cases b <;> rfl
  exact h _ _

/-- Bits 3 to 1 of `STATUS` are `RESULT` (R27, R28). -/
theorem resultField_statusWord (s : State) : resultField (statusWord s) = s.result.code := by
  have h : ∀ (v : BitVec 28) (c : BitVec 3) (b : BitVec 1), ((v ++ c) ++ b).extractLsb' 1 3 = c := by
    intro v c b
    ext i hi
    rw [BitVec.getElem_extractLsb', BitVec.getLsbD_append, BitVec.getLsbD_append,
      if_neg (by omega), if_pos (by omega), Nat.add_sub_cancel_left, BitVec.getLsbD_eq_getElem hi]
  exact h _ _ _

/-- The poll of `wait_idle` ends on the status word of an idle engine. -/
theorem pollEnds_statusWord (s : State) : pollEnds 0x1 0x0 (statusWord s) = !busy s := by
  change decide (statusWord s &&& 1#32 = 0#32) = _
  rw [BitVec.and_one_eq_setWidth_ofBool_getLsbD, statusWord_bit0]
  cases busy s <;> rfl

/-- `wait_idle` reads `STATUS`, and is over exactly when the engine is idle. -/
theorem host_waitIdle (s : State) (rest : List HostLine) (values : List Word) :
    HostRun.host ⟨s, waitIdle :: rest, values⟩
      = ⟨{ s with resp := .data (statusWord s) }, if busy s then waitIdle :: rest else rest, values⟩ := by
  simp only [HostRun.host, waitIdle, HostLine.req, hostMove_readStatus, outcomeState, HostLine.repeats, HostLine.assigns,
    HostResp.value, Option.any_some, pollEnds_statusWord, Bool.not_not, Option.toList_none, List.append_nil]

/-- `result` reads `STATUS` and assigns the result's number. -/
theorem host_result (s : State) (rest : List HostLine) (values : List Word) :
    HostRun.host ⟨s, .result :: rest, values⟩
      = ⟨{ s with resp := .data (statusWord s) }, rest, values ++ [s.result.code.setWidth 32]⟩ := by
  simp [HostRun.host, HostLine.req, hostMove_readStatus, outcomeState, HostLine.repeats, HostLine.assigns,
    HostResp.value, resultField_statusWord]

/-! ### The filesystem's calls (R290) -/

/-- A READ the filesystem issues stays inside its sector. -/
theorem pieceOffset_add_pieceCount_le (offset count left : Nat) :
    pieceOffset offset + pieceCount offset count left ≤ 512 := by
  simp only [pieceOffset, pieceCount, sectorSize]; omega

/-- It brings no more than the call still wants, so it stays inside the call's target. -/
theorem pieceCount_le_left (offset count left : Nat) : pieceCount offset count left ≤ left := by
  simp only [pieceCount]; omega

/-- A `RESULT` other than OK ends the call with an error, and brings nothing. -/
theorem afterAccess_failed (f : FsRun) (left : List HostLine) {r : Word} (h : r ≠ 0) :
    f.afterAccess left [r] = { f with lines := [], pieces := [], error := true } := by
  unfold FsRun.afterAccess
  exact if_pos (by simpa using h)

/-- OK ends the piece, which brings its bytes. -/
theorem afterAccess_ok (f : FsRun) : f.afterAccess [] [0] = { f with lines := [], done := f.done + f.count } := rfl

/-- An access before that assigns nothing and leaves lines: the piece goes on. -/
theorem afterAccess_goes_on (f : FsRun) (l : HostLine) (ls : List HostLine) :
    f.afterAccess (l :: ls) [] = { f with lines := l :: ls } := rfl

/-- What holds at the start of a run and is kept by every move holds at its end. -/
theorem Play.run_induct {P : Play → Prop} (c : StreamConfig) (hm : ∀ m p, P p → P (p.move c m)) (ms : List PlayMove)
    {p : Play} (h : P p) : P (Play.run c ms p) := by
  induction ms generalizing p with
  | nil => exact h
  | cons m rest ih => exact ih (hm m p h)

/-! ### The sequence -/

/-- After a full read the host waits for the swap; after a short one it drains. -/
theorem afterFill_host (c : StreamConfig) (n : Nat) (failed : Bool) :
    (afterFill c n failed).1 = ⟨if n = c.bufSize then .waitSwap else .draining, failed⟩ := by
  unfold afterFill; split <;> rfl

/-- A sequence that may start resets the indices and skips to the first full sector. -/
theorem streamStep_start (c : StreamConfig) (failed : Bool) {status : Word} {header : List Byte} {position : Nat}
    (h : streamReady status header position = true) :
    streamStep c ⟨.idle, failed⟩ (.start status header position)
      = (⟨.skipping, failed⟩, [.access audioReset, .fsSkip primingSkip]) := by
  unfold streamStep
  exact if_pos h

/-- A host that has stopped learns nothing more. -/
theorem streamStep_stopped (c : StreamConfig) (failed : Bool) (e : StreamEvent) :
    streamStep c ⟨.stopped, failed⟩ e = (⟨.stopped, failed⟩, []) := by
  unfold streamStep
  cases e <;> rfl

end Sys2Proof.Machine
end

