-- ==== Sys2Proof/Tests/Slice0.lean ====
section
/-! SUPPORT. Tests of the model: ill-formed terms, decoding of words written out from 30_encoding.md, single steps with
results from 95_test_vectors.md, and a witness for the hypotheses of each obligation that has any. -/

namespace Sys2Proof.Tests

open Sys2Proof Sys2Proof.Machine

/-! ### Helpers -/

/-- The state after an instruction, from a state of the test. -/
def after (i : Instr) (s : State) : State := outcomeState s (exec i s)

/-- The state after a host access. -/
def afterHost (r : HostReq) (s : State) : State := outcomeState s (hostMove r s)

/-- The state after a list of moves. -/
def afterMoves (ms : List Move) (s : State) : State := outcomeState s (runMoves ms s)

/-- A state at a sequencer position of an operation, its latches loaded. -/
def at_ (op : BitVec 4) (den : Bool) (arg0 : Word) (off cnt : BitVec 10) (addr : BAddr) (p : EnginePos)
    (card : List Byte) : State :=
  { State.reset with latch := ⟨op, den, arg0, off, cnt, addr⟩, eng := p, cardIn := card }

/-- A state in INIT. -/
def inInit (p : EnginePos) (card : List Byte) : State := at_ 1 false 0 0 0 0 p card

/-- A block-addressed card, ready, with `card` to answer next. -/
def readyAt (op : BitVec 4) (den : Bool) (arg0 : Word) (off cnt : BitVec 10) (addr : BAddr) (p : EnginePos)
    (card : List Byte) : State :=
  { at_ op den arg0 off cnt addr p card with family := .sdv2, block := true, fast := true }

/-- The same with a write open. -/
def openAt (wcur : BitVec 10) (p : EnginePos) (card : List Byte) : State :=
  { readyAt 3 false 0 0 0 0 p card with wopen := true, csa := true, wcur := wcur }

/-- The last event exchanged: chip-select, byte sent, byte received. -/
def lastEvent (s : State) : Option (Bool × Byte × Byte) := s.trace.head?.map (fun e => (e.csa, e.out, e.inp))

/-- V-A1's start: buffer 0 = 0A 0B 0C 0D, buffer 1 = 14 15 16 17, six samples. -/
def audio : State :=
  { State.reset with
    arem := 6
    mem := [(0, 0x0A), (1, 0x0B), (2, 0x0C), (3, 0x0D), (4, 0x14), (5, 0x15), (6, 0x16), (7, 0x17)] }

/-! ### Well-formedness refuses, for each of its checks -/

theorem test_wf_refuses_wide_byte : (Instr.wrCmd .w8 0x100).wf = false := by decide
theorem test_wf_refuses_wide_half : (Instr.wrTdiv .w16 0x10000).wf = false := by decide
theorem test_wf_refuses_wide_access : (Instr.bmem 0 (.write .w8 0x1FF)).wf = false := by decide
theorem test_wf_refuses_open_of_sector_0 : (Instr.writeOpen 0).wf = false := by decide
theorem test_wf_refuses_swap_name : (Instr.wrAstatSwap .w32 0x4).wf = false := by decide
theorem test_wf_refuses_underrun_name : (Instr.wrAstatUnderrun .w32 0x6).wf = false := by decide
theorem test_wf_accepts_full_widths :
    (Instr.wrCmd .w8 0xFF).wf = true ∧ (Instr.arg0 (.write .w16 0xFFFF)).wf = true
      ∧ (Instr.wrDuty .w32 0xFFFFFFFF).wf = true := by decide

/-! ### Decoding: every row, from words of 30_encoding.md R92, 10_state.md R20, 20_memory.md R63 and R97 -/

theorem test_decode_operations :
    decode (.op 0x00000001 9 9 9) = .ok .init
      ∧ decode (.op 0x00000102 0x00123456 0x01F4000C 0x00000008) = .ok (.read 0x00123456 12 500 8)
      ∧ decode (.op 0x00000002 1 0x000201FE 0xFFFF) = .ok (.readSkip 1 510 2)
      ∧ decode (.op 0x00000103 600 0 0x0000FFFF) = .ok (.writeData 600 0xFFFF)
      ∧ decode (.op 0x00000003 5 0 0) = .ok (.writeOpen 5)
      ∧ decode (.op 0x00000003 0 0 0) = .ok .writeClose
      ∧ decode (.op 0x00000100 0 0 0) = .ok .reservedOp0
      ∧ decode (.op 0x00000004 0 0 0) = .ok (.reservedOp47 0)
      ∧ decode (.op 0x00000007 0 0 0) = .ok (.reservedOp47 3)
      ∧ decode (.op 0x00000008 0 0 0) = .ok (.reservedOp8F 0)
      ∧ decode (.op 0x0000000F 0 0 0) = .ok (.reservedOp8F 7) := by decide

theorem test_decode_engine_registers :
    decode (.access ⟨0x00000, .write .w32 0x102⟩) = .ok (.wrCmd .w32 0x102)
      ∧ decode (.access ⟨0x00000, .read .w32⟩) = .ok (.rdCmd .w32)
      ∧ decode (.access ⟨0x00004, .read .w32⟩) = .ok (.arg0 (.read .w32))
      ∧ decode (.access ⟨0x00008, .write .w32 7⟩) = .ok (.arg1 (.write .w32 7))
      ∧ decode (.access ⟨0x0000C, .read .w32⟩) = .ok (.addr (.read .w32))
      ∧ decode (.access ⟨0x00010, .read .w32⟩) = .ok (.rdStatus .w32)
      ∧ decode (.access ⟨0x00010, .write .w32 0x800⟩) = .ok (.wrStatus .w32 0x800)
      ∧ decode (.access ⟨0x00014, .read .w32⟩) = .ok (.wcur (.read .w32))
      ∧ decode (.access ⟨0x00018, .read .w32⟩) = .ok (.lastr1 (.read .w32))
      ∧ decode (.access ⟨0x0001C, .read .w32⟩) = .ok (.ocr (.read .w32))
      ∧ decode (.access ⟨0x0003C, .read .w32⟩) = .ok (.param (.read .w32)) := by decide

theorem test_decode_audio_registers :
    decode (.access ⟨0x00020, .read .w32⟩) = .ok (.rdActrl .w32)
      ∧ decode (.access ⟨0x00020, .write .w32 8⟩) = .ok (.wrActrl .w32 8)
      ∧ decode (.access ⟨0x00024, .read .w32⟩) = .ok (.rdAstat .w32)
      ∧ decode (.access ⟨0x00024, .write .w32 0x2⟩) = .ok (.wrAstatSwap .w32 0x2)
      ∧ decode (.access ⟨0x00024, .write .w32 0x6⟩) = .ok (.wrAstatSwap .w32 0x6)
      ∧ decode (.access ⟨0x00024, .write .w32 0x0⟩) = .ok (.wrAstatSwap .w32 0x0)
      ∧ decode (.access ⟨0x00024, .write .w32 0x4⟩) = .ok (.wrAstatUnderrun .w32 0x4)
      ∧ decode (.access ⟨0x00028, .read .w32⟩) = .ok (.acur (.read .w32))
      ∧ decode (.access ⟨0x0002C, .read .w32⟩) = .ok (.rdArem .w32)
      ∧ decode (.access ⟨0x0002C, .write .w32 8⟩) = .ok (.wrArem .w32 8)
      ∧ decode (.access ⟨0x00030, .write .w32 4⟩) = .ok (.aremadd (.write .w32 4))
      ∧ decode (.access ⟨0x00034, .read .w32⟩) = .ok (.rdTdiv .w32)
      ∧ decode (.access ⟨0x00034, .write .w32 2⟩) = .ok (.wrTdiv .w32 2)
      ∧ decode (.access ⟨0x00038, .read .w32⟩) = .ok (.rdDuty .w32)
      ∧ decode (.access ⟨0x00038, .write .w32 0x40⟩) = .ok (.wrDuty .w32 0x40)
      ∧ decode .event = .ok .tick := by decide

theorem test_decode_other_offsets :
    decode (.access ⟨0x00040, .read .w32⟩) = .ok (.reserved407C 0 (.read .w32))
      ∧ decode (.access ⟨0x0007C, .read .w32⟩) = .ok (.reserved407C 0x3C (.read .w32))
      ∧ decode (.access ⟨0x00080, .read .w32⟩) = .ok (.reserved80FC 0 (.read .w32))
      ∧ decode (.access ⟨0x000FC, .read .w32⟩) = .ok (.reserved80FC 0x7C (.read .w32))
      ∧ decode (.access ⟨0x00100, .read .w8⟩) = .ok (.unmapped100 0 (.read .w8))
      ∧ decode (.access ⟨0x00200, .read .w8⟩) = .ok (.unmapped200 0 (.read .w8))
      ∧ decode (.access ⟨0x00400, .read .w8⟩) = .ok (.unmapped400 0 (.read .w8))
      ∧ decode (.access ⟨0x00800, .read .w8⟩) = .ok (.unmapped800 0 (.read .w8))
      ∧ decode (.access ⟨0x01000, .read .w8⟩) = .ok (.unmapped1000 0 (.read .w8))
      ∧ decode (.access ⟨0x02000, .read .w8⟩) = .ok (.unmapped2000 0 (.read .w8))
      ∧ decode (.access ⟨0x04000, .read .w8⟩) = .ok (.unmapped4000 0 (.read .w8))
      ∧ decode (.access ⟨0x08000, .read .w8⟩) = .ok (.unmapped8000 0 (.read .w8))
      ∧ decode (.access ⟨0x0FFFF, .read .w8⟩) = .ok (.unmapped8000 0x7FFF (.read .w8))
      ∧ decode (.access ⟨0x10000, .read .w8⟩) = .ok (.bmem 0 (.read .w8))
      ∧ decode (.access ⟨0x1FFFF, .write .w8 0x1FF⟩) = .ok (.bmem 0xFFFF (.write .w8 0xFF)) := by decide

theorem test_decode_frames :
    decode (.frame [0x40, 0, 0, 0, 0, 0x95]) = .ok .cmd0
      ∧ decode (.frame [0x48, 0, 0, 0x01, 0xAA, 0x87]) = .ok .cmd8
      ∧ decode (.frame [0x77, 0, 0, 0, 0, 0x01]) = .ok .cmd55
      ∧ decode (.frame [0x69, 0x40, 0, 0, 0, 0x01]) = .ok (.acmd41 true)
      ∧ decode (.frame [0x69, 0, 0, 0, 0, 0x01]) = .ok (.acmd41 false)
      ∧ decode (.frame [0x41, 0, 0, 0, 0, 0x01]) = .ok .cmd1
      ∧ decode (.frame [0x7A, 0, 0, 0, 0, 0x01]) = .ok .cmd58
      ∧ decode (.frame [0x50, 0, 0, 0x02, 0, 0x01]) = .ok .cmd16
      ∧ decode (.frame [0x51, 0x24, 0x68, 0xAC, 0x00, 0x01]) = .ok (.cmd17 0x2468AC00)
      ∧ decode (.frame [0x58, 0, 0, 0x0A, 0, 0x01]) = .ok (.cmd24 0xA00) := by decide

theorem test_decode_rejects_by_name :
    decode (.access ⟨0x00011, .read .w32⟩) = .error .misalignedRegister
      ∧ decode (.frame [0x40, 0, 0, 0, 0]) = .error .frameLength
      ∧ decode (.frame [0x4C, 0, 0, 0, 0, 0x01]) = .error .commandByte
      ∧ decode (.frame [0x50, 0, 0, 0x04, 0, 0x01]) = .error .argument
      ∧ decode (.frame [0x40, 0, 0, 0, 0, 0x01]) = .error .trailer := by decide

theorem test_table_words :
    decodeTableWord 8 0x1 = some .init ∧ decodeTableWord 16 0x102 = some (.read 0 0 0 0)
      ∧ decodeTableWord 24 0x24 = some (.rdAstat .w32) ∧ decodeTableWord 24 0x20024 = some (.wrAstatSwap .w32 0)
      ∧ decodeTableWord 24 0x10000 = some (.bmem 0 (.read .w32)) ∧ decodeTableWord 8 0x48 = some .cmd8
      ∧ decodeTableWord 48 0x01000A000058 = some (.cmd24 0xA00) ∧ decodeTableWord 0 0 = some .tick := by decide

/-! ### Single steps: registers and host accesses (95_test_vectors.md 2.7) -/

theorem test_reset_register_loads :
    (after (.rdStatus .w32) State.reset).resp = .data 0x4 ∧ (after (.rdAstat .w32) State.reset).resp = .data 0x8
      ∧ (after (.rdTdiv .w32) State.reset).resp = .data 0xFFFF ∧ (after (.rdDuty .w32) State.reset).resp = .data 0x80
      ∧ (after (.lastr1 (.read .w32)) State.reset).resp = .data 0xFF
      ∧ (after (.param (.read .w32)) State.reset).resp = .data 4
      ∧ (after (.rdCmd .w32) State.reset).resp = .data 0 ∧ (after (.rdActrl .w32) State.reset).resp = .data 0 := by
  decide

theorem test_status_of_an_open_write : statusWord { openAt 312 .idle [] with result := .ok } = 0x7D0 := by decide

theorem test_window_is_little_endian :
    (afterHost (rdb 8) (afterHost (wrw 8 0x44332211) State.reset)).resp = .data 0x11
      ∧ (afterHost (rdb 11) (afterHost (wrw 8 0x44332211) State.reset)).resp = .data 0x44 := by decide

theorem test_window_bus_errors :
    (afterHost (wrw 10 1) State.reset).resp = .busError ∧ (afterHost (rdb 520) State.reset).resp = .busError
      ∧ (afterHost ⟨0x10000, .read .w16⟩ State.reset).resp = .busError
      ∧ (afterHost (wrb 519 7) State.reset).mem = [(519, 7)] := by decide

theorem test_unmapped_and_reserved :
    (afterHost ⟨0x100, .read .w32⟩ State.reset).resp = .busError ∧ (afterHost (rd 0x40) State.reset).resp = .data 0
      ∧ (afterHost (wr 0x40 0xFFFFFFFF) State.reset).resp = .done := by decide

theorem test_arg1_masks :
    (after (.arg1 (.read .w32)) (after (.arg1 (.write .w32 0xFFFFFFFF)) State.reset)).resp = .data 0x03FF03FF := by
  decide

theorem test_launch_with_reserved_bits :
    (after (.wrCmd .w32 0xFFFFFFF1) State.reset).eng = .launched
      ∧ (after (.rdCmd .w32) (after (.wrCmd .w32 0xFFFFFFF1) State.reset)).resp = .data 0x101 := by decide

theorem test_launch_while_busy_is_lost :
    (after (.wrCmd .w32 1) (inInit .setFast [])).lost = true
      ∧ (after (.wrCmd .w32 1) (inInit .setFast [])).eng = .setFast
      ∧ (after (.wrStatus .w32 0x800) { State.reset with lost := true }).lost = false
      ∧ (after (.wrStatus .w32 0x0) { State.reset with lost := true }).lost = true := by decide

theorem test_small_registers :
    (after (.rdTdiv .w32) (after (.wrTdiv .w32 0x12345678) State.reset)).resp = .data 0x5678
      ∧ (after (.rdDuty .w32) (after (.wrDuty .w32 0x1FF) State.reset)).resp = .data 0xFF
      ∧ (after (.aremadd (.write .w32 2)) (after (.wrArem .w32 0xFFFFFFFF) State.reset)).arem = 1
      ∧ (after (.wrAstatSwap .w32 0x9) State.reset).resp = .done := by decide

theorem test_operand_registers :
    (after (.arg0 (.write .w32 0x12345678)) State.reset).arg0 = 0x12345678
      ∧ (after (.addr (.write .w32 0x12345678)) State.reset).addr = 0x5678 := by decide

/-! ### Single steps: the audio FIFO (2.6) -/

theorem test_tick_emits_first_byte :
    (after .tick audio).duty = 0x0A ∧ (after .tick audio).acur = 1 ∧ (after .tick audio).arem = 5 := by decide

theorem test_tick_switches_with_underrun :
    (after .tick { audio with acur := 4, swap := true }).duty = 0x14
      ∧ (after .tick { audio with acur := 4, swap := true }).active = true
      ∧ (after .tick { audio with acur := 4, swap := true }).underrun = true := by decide

theorem test_drained_tick_does_nothing : after .tick { audio with arem := 0, acur := 4 } = { audio with arem := 0, acur := 4 } := by
  rfl

theorem test_index_reset_and_enable :
    (after (.wrActrl .w32 0x8) { audio with active := true, acur := 2, swap := true }).acur = 0
      ∧ (after (.wrActrl .w32 0x8) { audio with active := true, acur := 2, swap := true }).active = false
      ∧ (after (.wrActrl .w32 0x2) { State.reset with duty := 0x15 }).duty = 0x80
      ∧ (after (.wrActrl .w32 0x2) { State.reset with duty := 0x15, pen := true }).duty = 0x15 := by decide

theorem test_timer_period :
    (afterMoves [.tclk, .tclk] { audio with ten := true, tdiv := 2 }).arem = 6
      ∧ (afterMoves [.tclk, .tclk, .tclk] { audio with ten := true, tdiv := 2 }).arem = 5
      ∧ (afterMoves [.tclk] { audio with ten := true, tdiv := 2, tcnt := 5 }).tcnt = 0 := by decide

theorem test_same_cycle_add_and_tick :
    (afterMoves (cycleMoves (some (remAdd 4)) true false false)
      { State.reset with ten := true, tdiv := 0, active := true, acur := 4, mem := [(0, 0x30)] }).arem = 3
      ∧ (afterMoves (cycleMoves (some (remAdd 4)) true false false)
      { State.reset with ten := true, tdiv := 0, active := true, acur := 4, mem := [(0, 0x30)] }).duty = 0x30 := by
  decide

theorem test_same_cycle_clear_and_switch :
    (afterMoves (cycleMoves (some ackSwap) true false false)
      { audio with ten := true, tdiv := 0, acur := 4, swap := true }).swap = true
      ∧ (afterMoves (cycleMoves (some ackSwap) true false false)
      { audio with ten := true, tdiv := 0, acur := 4, swap := true }).underrun = false := by decide

theorem test_acknowledgements :
    (after (.wrAstatUnderrun .w32 0x4) { audio with swap := true, underrun := true }).underrun = false
      ∧ (after (.wrAstatUnderrun .w32 0x4) { audio with swap := true, underrun := true }).swap = true
      ∧ (after (.wrAstatSwap .w32 0x2) { audio with swap := true, underrun := true }).underrun = true := by decide

/-! ### Single steps: the engine (2.2 to 2.5) -/

theorem test_frame_bytes :
    CardCmd.cmd8.frame = [0x48, 0x00, 0x00, 0x01, 0xAA, 0x87]
      ∧ (CardCmd.cmd17 (cardAddress false 0x00123456)).frame = [0x51, 0x24, 0x68, 0xAC, 0x00, 0x01]
      ∧ (CardCmd.cmd17 (cardAddress false 0x00800000)).frame = [0x51, 0x00, 0x00, 0x00, 0x00, 0x01]
      ∧ (CardCmd.cmd17 (cardAddress true 0x12345678)).frame = [0x51, 0x12, 0x34, 0x56, 0x78, 0x01] := by decide

theorem test_command_byte_is_sent :
    lastEvent (after .cmd0 (inInit (.cmd (.plain (.initIdle 0)) .cmd0 (.byte 0)) [0x55])) = some (false, 0x40, 0x55)
      ∧ lastEvent (after .cmd55 (inInit (.cmd (.lead true (.initHcs 0)) .cmd55 (.byte 0)) [0x55]))
        = some (false, 0x77, 0x55) := by decide

theorem test_poll_takes_first_valid_byte :
    (after .cmd16 (inInit (.cmd (.plain (.initBlockLen .sdv1)) .cmd16 (.poll 7)) [0x7F])).lastR1 = 0x7F
      ∧ (after .cmd16 (inInit (.cmd (.plain (.initBlockLen .sdv1)) .cmd16 (.poll 7)) [0x80])).eng
        = .cmd (.plain (.initBlockLen .sdv1)) .cmd16 (.poll 6) := by decide

theorem test_leading_command_aborts :
    (after .cmd55 (inInit (.cmd (.lead true (.initHcs 0)) .cmd55 (.poll 9)) [0x05])).eng = .initEnd .unknown false
      ∧ (after .cmd55 (inInit (.cmd (.lead true (.initHcs 0)) .cmd55 (.poll 9)) [0x00])).eng
        = .cmd (.plain (.initHcs 0)) (.acmd41 true) .desel := by decide

theorem test_other_commands_end :
    (after (.acmd41 true) (inInit (.cmd (.plain (.initHcs 3)) (.acmd41 true) (.poll 9)) [0x00])).eng
        = .cmd (.plain .initOcr) .cmd58 .desel
      ∧ (after .cmd8 (inInit (.cmd (.plain .initVersion) .cmd8 (.poll 9)) [0x01])).eng = .rd4 .echo 3 0
      ∧ (after .cmd1 (inInit (.cmd (.plain (.initLoop .mmcv3 0)) .cmd1 (.poll 9)) [0x01])).eng = .initEnd .unknown false
      ∧ (after .cmd58 (inInit (.cmd (.plain .initOcr) .cmd58 (.poll 9)) [0x05])).eng = .initEnd .unknown false
      ∧ (after (.cmd17 8) (readyAt 2 true 8 0 0 0 (.cmd (.plain .read) (.cmd17 8) (.poll 9)) [0x00])).eng = .token 999
      ∧ (after (.cmd24 8) (readyAt 3 false 8 0 0 0 (.cmd (.plain .writeOpen) (.cmd24 8) (.poll 9)) [0x04])).eng
        = .desel .error := by decide

theorem test_init_words_and_end :
    (after .init (inInit (.rd4 .ocr 0 0x00C0FF80) [0x00])).ocr = 0xC0FF8000
      ∧ (after .init (inInit (.rd4 .ocr 0 0x00C0FF80) [0x00])).eng = .initEnd .sdv2 true
      ∧ (after .init (inInit (.rd4 .echo 0 0x00000001) [0x55])).eng = .initEnd .unknown false
      ∧ (after .init (inInit (.initEnd .sdv2 true) [0])).family = .sdv2 := by decide

theorem test_init_clears_ready_with_its_first_step :
    ready (openAt 312 .launched [9]) = true
      ∧ (after .init (openAt 312 .launched [9])).eng = .closePad .init
      ∧ ready (after .init (openAt 312 .launched [9])) = false
      ∧ (after .init (openAt 0 (.closeResp .init) [0x0D])).eng = .closeDesel .init .error := by decide

theorem test_exchange_is_shifted_most_significant_bit_first :
    exchangeCycles ⟨true, false, 0x40, 0xFE⟩
      = [⟨true, false, false, true⟩, ⟨true, false, true, true⟩, ⟨true, false, false, true⟩, ⟨true, false, false, true⟩,
        ⟨true, false, false, true⟩, ⟨true, false, false, true⟩, ⟨true, false, false, true⟩, ⟨true, false, false, false⟩] := by
  decide

theorem test_read_stores_and_discards :
    (after (.read 1 510 2 0x10) (readyAt 2 true 1 510 2 0x10 (.packet 511) [0xAB])).mem = [(0x11, 0xAB)]
      ∧ (after (.readSkip 1 510 2) (readyAt 2 false 1 510 2 0x10 (.packet 511) [0xAB])).mem = []
      ∧ (after (.read 1 510 2 0x10) (readyAt 2 true 1 510 2 0x10 (.token 5) [0x08])).eng = .desel .error := by decide

theorem test_write_steps :
    lastEvent (after (.writeData 600 0) { openAt 512 (.sendData 0 512) [0] with mem := [(0, 0x99)] })
        = some (true, 0x99, 0)
      ∧ (after (.writeOpen 5) (readyAt 3 false 5 0 0 0 .openToken [0])).wcur = 512
      ∧ (after .writeClose (openAt 0 (.closeResp .op) [0xE5])).eng = .closeBusy .op 4999
      ∧ (after .writeClose (openAt 0 (.closeResp .op) [0x0B])).eng = .closeDesel .op .error := by decide

theorem test_reserved_operations_end :
    (after .reservedOp0 (at_ 0 false 0 0 0 0 .launched [])).result = .parErr
      ∧ (after (.reservedOp47 1) (at_ 5 false 0 0 0 0 .launched [])).eng = .idle
      ∧ (after (.reservedOp8F 1) (at_ 9 false 0 0 0 0 .launched [])).trace = [] := by decide

/-! ### The host contract (E5, 2.8) -/

/-- E5's base header, with its rate, bit depth and data size. -/
def header (rate bits : Byte × Byte) (size : List Byte) : List Byte :=
  [0x52, 0x49, 0x46, 0x46, 0x24, 0x20, 0, 0, 0x57, 0x41, 0x56, 0x45, 0x66, 0x6D, 0x74, 0x20, 0x10, 0, 0, 0, 1, 0, 1, 0]
    ++ [rate.1, rate.2, 0, 0, 0x28, 0x23, 0, 0, 1, 0, bits.1, bits.2, 0x64, 0x61, 0x74, 0x61] ++ size

theorem test_load_header :
    loadHeader (header (0x28, 0x23) (8, 0) [0, 0x20, 0, 0]) = 0x2000
      ∧ loadHeader (header (0x3F, 0x1F) (8, 0) [0, 0x20, 0, 0]) = 0
      ∧ loadHeader (header (0x10, 0x27) (8, 0) [0, 0x20, 0, 0]) = 0x2000
      ∧ loadHeader (header (0x28, 0x23) (16, 0) [0, 0x20, 0, 0]) = 0
      ∧ loadHeader (header (0x28, 0x23) (8, 0) []) = 0 := by decide

theorem test_timer_divisor :
    timerDivisor 1000000 8000 = some 124 ∧ timerDivisor 1000000 9000 = some 110
      ∧ timerDivisor 1000000 10000 = some 99 ∧ timerDivisor 16000000 8000 = some 1999
      ∧ timerDivisor 3999 8000 = none ∧ timerDivisor 1000000000 8000 = none := by decide

/-- The interleaving of a run: program accesses with one engine step before the accesses that `true` marks. -/
def accesses (ms : List Bool) : List (Option Move) :=
  ms.flatMap (fun m => if m then [some .engine, none] else [none])

/-- Program P4, row 1 (95_test_vectors.md): a READ before INIT is NOTRDY; the poll that comes while the engine is busy is
repeated. -/
theorem test_program_read_before_init :
    let p := HostRun.run (accesses [false, false, false, false, false, true, false])
      ⟨State.reset, opRead 0 0 16 8 ++ [.result], []⟩
    p.lines = [] ∧ p.values = [2] ∧ busTrace p.s = [] ∧ p.s.resp = .data 0x004 := by decide

/-- Program P4, row 2: a reserved operation is PARERR; until its step the program stays at `wait_idle`. -/
theorem test_program_reserved_op :
    (HostRun.run (accesses [false, false, false]) ⟨State.reset, [.access (wr 0x00 0x0), waitIdle, .result], []⟩).lines
        = [waitIdle, .result]
      ∧ (HostRun.run (accesses [false, false, true, false])
          ⟨State.reset, [.access (wr 0x00 0x0), waitIdle, .result], []⟩).values = [3] := by decide

/-- A poll at an offset that is a bus error reads no value and is repeated. -/
theorem test_program_poll_of_unmapped :
    (HostRun.run [none, none] ⟨State.reset, [.poll 0x100 0x0 0x0], []⟩).lines = [.poll 0x100 0x0 0x0] := by decide

/-- The reference host of program P3, polling. -/
def p3Host : StreamConfig := { bufSize := 4, byIrq := false, cleanUp := true }

theorem test_stream_starts_only_when_ready :
    streamReady 0x2D0 (header (0x28, 0x23) (8, 0) [0, 0x20, 0, 0]) 44 = true
      ∧ streamReady 0x2D6 (header (0x28, 0x23) (8, 0) [0, 0x20, 0, 0]) 44 = false
      ∧ streamReady 0x2D0 (header (0x28, 0x23) (8, 0) [0xFF, 3, 0, 0]) 44 = false
      ∧ streamReady 0x2D0 (header (0x28, 0x23) (8, 0) [0, 0x20, 0, 0]) 0 = false
      ∧ streamReady 0x000 (header (0x28, 0x23) (8, 0) [0, 0x20, 0, 0]) 44 = false := by decide

/-- R290: a call's READs carry a destination in the target and stay in the sector; a skip's carry none (R112, V-H3). -/
theorem test_filesystem_issues_reads :
    (FsRun.takePiece { FsRun.start (some 4) 4 ⟨[.read 7 510 9], false⟩ with done := 1 }).lines
        = opRead 7 510 2 5 ++ [.result]
      ∧ (FsRun.takePiece (FsRun.start none 468 ⟨[.read 0 44 1000], false⟩)).lines = opSkip 0 44 468 ++ [.result]
      ∧ (FsRun.start (some 0) 4 ⟨[], false⟩).over = true := by decide

/-- R289: a READ whose `RESULT` is not OK is a read error, and brings nothing; one with OK brings its `COUNT`. -/
theorem test_filesystem_read_results :
    (FsRun.afterAccess (FsRun.takePiece (FsRun.start (some 0) 4 ⟨[.read 7 0 4, .read 8 0 4], false⟩)) [] [2])
        = { FsRun.start (some 0) 4 ⟨[], true⟩ with count := 4 }
      ∧ (FsRun.afterAccess (FsRun.takePiece (FsRun.start (some 0) 4 ⟨[.read 7 0 3], false⟩)) [] [0]).done = 3 := by decide

theorem test_stream_priming_and_refill :
    streamStep p3Host ⟨.fillSecond 4, false⟩ (.fsDone 4 false)
        = (⟨.waitSwap, false⟩, [.access (wr 0x2C 8), .access (wr 0x20 6), .access (wr 0x20 7), .access (rd 0x24)])
      ∧ streamStep p3Host ⟨.refill false, false⟩ (.fsDone 2 true)
        = (⟨.draining, true⟩, [.access (wr 0x30 2), .access (rd 0x24)])
      ∧ streamStep { p3Host with byIrq := true } ⟨.waitSwap, false⟩ .irq
        = (⟨.acked, false⟩, [.access (wr 0x24 2), .access (rd 0x24)])
      ∧ streamStep p3Host ⟨.acked, false⟩ (.astat 0xB) = (⟨.refill false, false⟩, [.fsRead 0 4]) := by decide

/-! ### Witnesses: states and operands that meet the hypotheses of the obligations, one per clause, at its boundaries -/

theorem witness_DecodeOfEncodeIsIdentity :
    (Instr.writeOpen 0xFFFFFFFF).wf = true ∧ (Instr.wrAstatUnderrun .w32 0x4).wf = true
      ∧ (Instr.bmem 0xFFFF (.write .w8 0xFF)).wf = true ∧ (Instr.unmapped8000 0x7FFF (.read .w64)).wf = true := by decide

theorem witness_DecodeGivesWellFormed : decode (.op 0x3 1 0 0) = .ok (.writeOpen 1) := by decide

theorem witness_ReservedCmdBitsAreIgnored :
    (0x00000001 : Word).extractLsb' 0 4 = (0xFFFFFEF1 : Word).extractLsb' 0 4
      ∧ (0x00000001 : Word).getLsbD 8 = (0xFFFFFEF1 : Word).getLsbD 8 := by decide

theorem witness_FrameLayoutAndFaithfulness : (CardCmd.cmd17 7).frame = (CardCmd.cmd17 7).frame := rfl

theorem witness_StepRunsTheDecodedInstruction_host :
    nextMove { State.reset with moves := [.host (rd 0x10)] } = .host (rd 0x10)
      ∧ decode (.access (rd 0x10)) = .ok (.rdStatus .w32) := by decide

theorem witness_StepRunsTheDecodedInstruction_engine :
    nextMove { inInit .setFast [] with moves := [.engine] } = .engine
      ∧ engineInstr { inInit .setFast [] with moves := [.engine] } = some .init := by decide

theorem witness_StepRunsTheDecodedInstruction_timer :
    nextMove { audio with ten := true, tdiv := 2, tcnt := 2, moves := [.tclk] } = .tclk
      ∧ { audio with ten := true, tdiv := 2, tcnt := 2, moves := [.tclk] }.tdiv.toNat
        ≤ { audio with ten := true, tdiv := 2, tcnt := 2, moves := [.tclk] }.tcnt.toNat := by decide

theorem witness_StepRunsTheDecodedInstruction_idle :
    nextMove { State.reset with moves := [.engine] } = .engine ∧ busy { State.reset with moves := [.engine] } = false := by
  decide

theorem witness_ResetMeetsTheInvariant :
    paramsOk Params.default = true ∧ paramsOk ⟨1, 1, 1, 1, 1⟩ = true ∧ paramsOk ⟨32512, 1, 1, 1, 1⟩ = true := by decide

theorem witness_StepKeepsTheInvariant :
    BlockInv { audio with ten := true, tdiv := 0, acur := 4, moves := [.tclk] }
      ∧ ∃ t, step { audio with ten := true, tdiv := 0, acur := 4, moves := [.tclk] } = .next t :=
  ⟨⟨by decide, by decide, by decide, by decide, by decide, by decide, by decide, by decide⟩, _, rfl⟩

theorem witness_BlockInv_in_an_operation : BlockInv (openAt 1 (.closePad .op) [0]) ∧ busy (openAt 1 (.closePad .op) [0]) = true :=
  ⟨⟨by decide, by decide, by decide, by decide, by decide, by decide, by decide, by decide⟩, by decide⟩

theorem witness_CmdStoreLaunchesWhenIdle : busy State.reset = false := by decide

theorem witness_LostIsStickyUntilAcknowledged :
    busy (inInit .setFast []) = true
      ∧ ∃ t, moveStep (.host (wr 0x10 0x800)) { State.reset with lost := true } = .next t ∧ t.lost = false :=
  ⟨by decide, _, rfl, rfl⟩

theorem witness_OnlyAcceptedAccessesAreNoBusError :
    (rd 0xFC).acc = .read .w32 ∧ (rd 0xFC).offset.toNat = 0xFC
      ∧ (afterHost (rd 0xFC) State.reset).resp = .data 0
      ∧ (afterHost ⟨0x100, .read .w32⟩ State.reset).resp = .busError
      ∧ (afterHost ⟨0x3E, .read .w32⟩ State.reset).resp = .busError
      ∧ (afterHost ⟨0x3C, .write .w8 0⟩ State.reset).resp = .busError
      ∧ bmemSize State.reset.par = 520
      ∧ (afterHost (wrb 519 0) State.reset).resp = .done ∧ (afterHost (wrb 520 0) State.reset).resp = .busError
      ∧ (afterHost (wrw 516 0) State.reset).resp = .done ∧ (afterHost (wrw 520 0) State.reset).resp = .busError
      ∧ (afterHost (wrw 515 0) State.reset).resp = .busError := by decide

theorem witness_ReservedOffsetsReadZeroAndIgnoreStores :
    (0x40 ≤ (0x40 : Offset).toNat ∧ (0x40 : Offset).toNat ≤ 0xFC ∧ (0x40 : Offset).toNat % 4 = 0)
      ∧ (0x40 ≤ (0xFC : Offset).toNat ∧ (0xFC : Offset).toNat ≤ 0xFC ∧ (0xFC : Offset).toNat % 4 = 0)
      ∧ (0x3C : BitVec 6).toNat % 4 = 0 ∧ (0x7C : BitVec 7).toNat % 4 = 0 := by decide

theorem witness_BmemByteAccess : (519 : BAddr).toNat + 1 ≤ bmemSize State.reset.par := by decide

theorem witness_BmemWordAccessIsLittleEndian :
    (516 : BAddr).toNat % 4 = 0 ∧ (516 : BAddr).toNat + 4 ≤ bmemSize State.reset.par := by decide

theorem witness_OnlyWindowStoresAndReadsChangeBlockMemory :
    (∃ t, exec (.writeData 1 0) (openAt 1 (.sendData 0 1) [0]) = .next t
      ∧ (∀ a w v, Instr.writeData 1 0 ≠ .bmem a (.write w v))
      ∧ ∀ sector offset count dest, Instr.writeData 1 0 ≠ .read sector offset count dest)
      ∧ ∃ t, moveStep (.host (wrb 519 7)) State.reset = .next t ∧ memRead t 519 = 7 :=
  ⟨⟨_, rfl, by simp, by simp⟩, ⟨_, rfl, by decide⟩⟩

theorem witness_AremAddIsAnIndivisibleAdd :
    { audio with ten := true, tdiv := 0 }.tdiv.toNat ≤ { audio with ten := true, tdiv := 0 }.tcnt.toNat := by decide

theorem witness_TdivStoreIsUsedAtTheNextClock :
    ((0x10002 : Word).extractLsb' 0 16).toNat ≤ { State.reset with ten := true, tcnt := 2 }.tcnt.toNat
      ∧ { State.reset with ten := true, tcnt := 2 }.tcnt.toNat < ((0x10003 : Word).extractLsb' 0 16).toNat := by decide

theorem witness_TickEmitsOneSample :
    { audio with arem := 0 }.arem = 0 ∧ audio.arem ≠ 0 ∧ audio.acur.toNat ≠ audio.par.bufSize
      ∧ { audio with acur := 4 }.acur.toNat = { audio with acur := 4 }.par.bufSize := by decide

theorem witness_TickReadsInsideTheActiveBuffer :
    BlockInv { audio with acur := 4, active := true } ∧ { audio with acur := 4, active := true }.arem ≠ 0 :=
  ⟨⟨by decide, by decide, by decide, by decide, by decide, by decide, by decide, by decide⟩, by decide⟩

theorem witness_TimerPeriodIsTdivPlusOne :
    { audio with ten := true, tdiv := 2 }.tcnt = 0 ∧ 2 ≤ { audio with ten := true, tdiv := 2 }.tdiv.toNat
      ∧ { audio with ten := true, tdiv := 2, tcnt := 2 }.tdiv.toNat
        ≤ { audio with ten := true, tdiv := 2, tcnt := 2 }.tcnt.toNat
      ∧ audio.ten = false := by decide

theorem witness_PulseWidthIsDutyOf256 : { audio with pen := true }.pen = true ∧ audio.pen = false := by decide

theorem witness_IrqRisesAndFalls :
    (∃ t, hostMove ackSwap { audio with swap := true, ien := true } = .next t)
      ∧ (∃ t, exec .tick { audio with acur := 4, ien := true } = .next t
          ∧ irq { audio with acur := 4, ien := true } = false ∧ irq t = true)
      ∧ (∃ t, exec (.wrActrl .w32 4) { audio with swap := true } = .next t
          ∧ irq { audio with swap := true } = false ∧ irq t = true)
      ∧ ∃ t, moveStep .tclk { audio with acur := 4, ien := true, ten := true, tdiv := 0 } = .next t ∧ irq t = true :=
  ⟨⟨_, rfl⟩, ⟨_, rfl, by decide, by decide⟩, ⟨_, rfl, by decide, by decide⟩, ⟨_, rfl, by decide⟩⟩

theorem witness_OnlyTheTickAdvancesTheFifo :
    (∃ t, exec (.wrActrl .w32 8) { audio with active := true, acur := 2 } = .next t ∧ t.acur = 0
      ∧ Instr.wrActrl .w32 8 ≠ .tick)
      ∧ ∃ t, moveStep .reset { audio with active := true, acur := 2 } = .next t ∧ t.acur = 0 :=
  ⟨⟨_, rfl, by decide, by simp⟩, ⟨_, rfl, by decide⟩⟩

theorem witness_EmittedBytesAreTheSuppliedBytesInOrder :
    paramsOk State.reset.par = true ∧ p3Host.bufSize = State.reset.par.bufSize ∧ busy State.reset = false
      ∧ streamReady 0x2D0 (header (0x28, 0x23) (8, 0) [0, 0x20, 0, 0]) 44 = true := by decide

theorem witness_EngineSendsOnlyListedBytes : ∃ t, exec .init (inInit .initDesel [7]) = .next t ∧ t.trace ≠ [] :=
  ⟨_, rfl, by simp [initStep, inInit, at_, initDeselStep, goto, deselect, rcv, xchg]⟩

theorem witness_CardCommandSteps :
    (inInit (.cmd (.plain .initVersion) .cmd8 .desel) []).eng = .cmd (.plain .initVersion) .cmd8 .desel
      ∧ (inInit (.cmd (.plain .initVersion) .cmd8 (.byte 5)) []).eng = .cmd (.plain .initVersion) .cmd8 (.byte 5)
      ∧ (inInit (.cmd (.plain .initVersion) .cmd8 (.poll 0)) []).eng = .cmd (.plain .initVersion) .cmd8 (.poll 0) :=
  ⟨rfl, rfl, rfl⟩

theorem witness_SendCommandReturnsWithinItsCeiling :
    (readyAt 2 true 1 0 0 0 (.cmd (.plain .read) (.cmd17 1) .desel) []).eng = .cmd (.plain .read) (.cmd17 1) .desel := rfl

theorem witness_ApplicationCommandFollowsItsLeadingCommand :
    (inInit (callCommand .initProbe (.acmd41 false)) []).eng = callCommand .initProbe (.acmd41 false) := rfl

theorem witness_TrailingWordRead :
    (inInit (.rd4 .ocr 3 0) [0xC0, 0xFF, 0x80, 0]).latch.op = 1
      ∧ (inInit (.rd4 .ocr 3 0) [0xC0, 0xFF, 0x80, 0]).eng = .rd4 .ocr 3 0 := ⟨rfl, rfl⟩

theorem witness_OnlyInitChangesTheDescriptorAndTheClockMode :
    (∃ t, exec .writeClose (openAt 0 (.closeResp .op) [0xE5]) = .next t ∧ Instr.writeClose ≠ .init)
      ∧ ∃ t, moveStep .engine (inInit .setFast []) = .next t ∧ t.fast = true :=
  ⟨⟨_, rfl, by simp⟩, ⟨_, rfl, by decide⟩⟩

theorem witness_InitSteps :
    (inInit .launched []).eng = .launched ∧ (inInit .launched []).wopen = false ∧ (inInit .initDesel []).eng = .initDesel
      ∧ (inInit (.powerUp 0) []).eng = .powerUp 0 ∧ (inInit (.initEnd .sdv2 true) []).eng = .initEnd .sdv2 true
      ∧ (inInit .setFast []).eng = .setFast ∧ (inInit (.fin .ok) []).eng = .fin .ok :=
  ⟨rfl, rfl, rfl, rfl, rfl, rfl, rfl⟩

theorem witness_InitSteps_close_and_word :
    (openAt 1 .launched []).wopen = true ∧ (openAt 1 (.closePad .init) []).eng = .closePad .init
      ∧ (openAt 0 (.closeCrc .init true) []).eng = .closeCrc .init true
      ∧ (openAt 0 (.closeResp .init) []).eng = .closeResp .init
      ∧ (openAt 0 (.closeBusy .init 0) []).eng = .closeBusy .init 0
      ∧ (openAt 0 (.closeDesel .init .error) []).eng = .closeDesel .init .error
      ∧ (inInit .initTinit []).eng = .initTinit ∧ (inInit (.rd4 .echo 3 0) []).eng = .rd4 .echo (2 + 1) 0
      ∧ (inInit (.rd4 .echo 0 7) []).eng = .rd4 .echo 0 7 ∧ (inInit (.rd4 .ocr 0 7) []).eng = .rd4 .ocr 0 7 :=
  ⟨rfl, rfl, rfl, rfl, rfl, rfl, rfl, rfl, rfl, rfl⟩

/-- An INIT just launched with a write open. -/
def initLaunchedOpen : State := { inInit .launched [] with family := .sdv2, block := true, wopen := true, csa := true, wcur := 512 }

theorem witness_InitClosesAnOpenWriteFirst :
    initLaunchedOpen.eng = .launched ∧ initLaunchedOpen.latch.op = 1 ∧ initLaunchedOpen.wopen = true
      ∧ paramsOk initLaunchedOpen.par = true ∧ BlockInv initLaunchedOpen :=
  ⟨by decide, by decide, by decide, by decide,
    ⟨by decide, by decide, by decide, by decide, by decide, by decide, by decide, by decide⟩⟩

theorem witness_InitEndsWithinItsBound :
    ∀ s ∈ [inInit .launched [], inInit .initTinit []], (s.eng = .launched ∨ s.eng = .initTinit) ∧ s.latch.op = 1
      ∧ s.wopen = false ∧ paramsOk s.par = true := by decide

/-- Eight bytes the engine ignores. -/
def ignored8 : List Byte := [1, 2, 3, 4, 5, 6, 7, 8]

/-- The eleven bytes of the power-up exchanges. -/
def ignored11 : List Byte := [1, 2, 3, 4, 5, 6, 7, 8, 9, 10, 11]

theorem witness_InitFindsVersion2Cards_block :
    ∃ s : State, s.eng = .launched ∧ s.latch.op = 1 ∧ s.wopen = false ∧ ignored11.length = 11 ∧ ignored8.length = 8
      ∧ (0x01 : Byte).toNat ≤ 1 ∧ (0xC0 : Byte).getLsbD 6 = true
      ∧ s.cardIn = ignored11 ++ answers ignored8 0x01 ++ answers ignored8 0x01 ++ [0, 0, 0x01, 0xAA]
        ++ answers ignored8 0x01 ++ answers ignored8 0x00 ++ answers ignored8 0x00 ++ [0xC0, 0xFF, 0x80, 0] ++ [9] ++ [] :=
  ⟨inInit .launched (ignored11 ++ answers ignored8 0x01 ++ answers ignored8 0x01 ++ [0, 0, 0x01, 0xAA]
    ++ answers ignored8 0x01 ++ answers ignored8 0x00 ++ answers ignored8 0x00 ++ [0xC0, 0xFF, 0x80, 0] ++ [9] ++ []),
    rfl, rfl, rfl, rfl, rfl, by decide, by decide, rfl⟩

theorem witness_InitFindsVersion2Cards_byte :
    ∃ s : State, s.eng = .launched ∧ s.latch.op = 1 ∧ s.wopen = false ∧ (0x01 : Byte).toNat ≤ 1
      ∧ (0x80 : Byte).getLsbD 6 = false
      ∧ s.cardIn = ignored11 ++ answers ignored8 0x01 ++ answers ignored8 0x01 ++ [0, 0, 0x01, 0xAA]
        ++ answers ignored8 0x01 ++ answers ignored8 0x00 ++ answers ignored8 0x00 ++ [0x80, 0xFF, 0x80, 0]
        ++ answers ignored8 0x00 ++ [9] ++ [] :=
  ⟨inInit .launched (ignored11 ++ answers ignored8 0x01 ++ answers ignored8 0x01 ++ [0, 0, 0x01, 0xAA]
    ++ answers ignored8 0x01 ++ answers ignored8 0x00 ++ answers ignored8 0x00 ++ [0x80, 0xFF, 0x80, 0]
    ++ answers ignored8 0x00 ++ [9] ++ []), rfl, rfl, rfl, by decide, by decide, rfl⟩

theorem witness_InitFindsTheOlderFamilies_mmc :
    ∃ s : State, s.eng = .launched ∧ s.latch.op = 1 ∧ s.wopen = false
      ∧ (0x05 : Byte).getLsbD 7 = false ∧ (0x05 : Byte) ≠ 0x01 ∧ 1 < (0x05 : Byte).toNat
      ∧ s.cardIn = ignored11 ++ answers ignored8 0x01 ++ answers ignored8 0x05 ++ answers ignored8 0x05
        ++ answers ignored8 0x00 ++ answers ignored8 0x00 ++ [9] ++ [] :=
  ⟨inInit .launched (ignored11 ++ answers ignored8 0x01 ++ answers ignored8 0x05 ++ answers ignored8 0x05
    ++ answers ignored8 0x00 ++ answers ignored8 0x00 ++ [9] ++ []), rfl, rfl, rfl, by decide, by decide, by decide, rfl⟩

theorem witness_InitFindsTheOlderFamilies_sdv1 :
    ∃ s : State, s.eng = .launched ∧ s.latch.op = 1 ∧ s.wopen = false
      ∧ (0x05 : Byte).getLsbD 7 = false ∧ (0x05 : Byte) ≠ 0x01 ∧ (0x01 : Byte).toNat ≤ 1
      ∧ s.cardIn = ignored11 ++ answers ignored8 0x01 ++ answers ignored8 0x05 ++ answers ignored8 0x01
        ++ answers ignored8 0x01 ++ answers ignored8 0x01 ++ answers ignored8 0x00 ++ answers ignored8 0x00 ++ [9] ++ [] :=
  ⟨inInit .launched (ignored11 ++ answers ignored8 0x01 ++ answers ignored8 0x05 ++ answers ignored8 0x01
    ++ answers ignored8 0x01 ++ answers ignored8 0x01 ++ answers ignored8 0x00 ++ answers ignored8 0x00 ++ [9] ++ []),
    rfl, rfl, rfl, by decide, by decide, by decide, rfl⟩

/-- A READ just launched. -/
def readLaunched (den : Bool) (off cnt : BitVec 10) (addr : BAddr) : State := readyAt 2 den 1 off cnt addr .launched []

theorem witness_ReadRefusesInOrder :
    (at_ 2 true 1 0 0 0 .launched []).family = .unknown ∧ (at_ 2 true 1 0 0 0 .launched []).latch.op = 2
      ∧ { readLaunched true 0 0 0 with wopen := true }.wopen = true
      ∧ 512 < (readLaunched true 13 500 0).latch.off.toNat + (readLaunched true 13 500 0).latch.cnt.toNat
      ∧ (readLaunched true 12 500 21).latch.off.toNat + (readLaunched true 12 500 21).latch.cnt.toNat ≤ 512
      ∧ bmemSize (readLaunched true 12 500 21).par
        < (readLaunched true 12 500 21).latch.addr.toNat + (readLaunched true 12 500 21).latch.cnt.toNat
      ∧ (readLaunched true 12 500 20).latch.addr.toNat + (readLaunched true 12 500 20).latch.cnt.toNat
        ≤ bmemSize (readLaunched true 12 500 20).par := by decide

theorem witness_ReadSteps :
    (readyAt 2 true 1 510 2 0x10 (.token 0) []).eng = .token 0
      ∧ (readyAt 2 true 1 510 2 0x10 (.packet 513) []).eng = .packet 513
      ∧ storeAddress (some 0x10) 510 2 511 = some 0x11 ∧ storeAddress (some 0x10) 510 2 512 = none
      ∧ storeAddress (some 0x10) 510 2 509 = none ∧ 0x11 < bmemSize State.reset.par
      ∧ (readyAt 2 true 1 510 2 0x10 (.desel .ok) []).eng = .desel .ok
      ∧ (readyAt 2 true 1 510 2 0x10 (.fin .ok) []).eng = .fin .ok := by decide

theorem witness_ReadStoresTheBytesItReceives :
    (readLaunched true 12 500 20).eng = .launched ∧ (readLaunched true 12 500 20).latch.op = 2
      ∧ (readLaunched true 12 500 20).family ≠ .unknown ∧ (readLaunched true 12 500 20).wopen = false
      ∧ paramsOk (readLaunched true 12 500 20).par = true
      ∧ (readLaunched true 12 500 20).latch.off.toNat + (readLaunched true 12 500 20).latch.cnt.toNat ≤ 512
      ∧ (readLaunched true 12 500 20).latch.addr.toNat + (readLaunched true 12 500 20).latch.cnt.toNat
        ≤ bmemSize (readLaunched true 12 500 20).par := by decide

theorem witness_WriteDataSteps :
    bmemSize (openAt 512 .launched []).par < (9 : BAddr).toNat + min (600 : Word).toNat (openAt 512 .launched []).wcur.toNat
      ∧ (8 : BAddr).toNat + min (600 : Word).toNat (openAt 512 .launched []).wcur.toNat
        ≤ bmemSize (openAt 512 .launched []).par
      ∧ (openAt 1 (.sendData 511 512) []).eng = .sendData 511 512 ∧ (openAt 0 (.fin .ok) []).eng = .fin .ok := by decide

/-- A WRITE data just launched, with the whole sector still to send. -/
def dataLaunched : State := { readyAt 3 true 600 0 0 8 .launched [] with wopen := true, csa := true, wcur := 512 }

theorem witness_WriteDataSendsItsSourceBytes :
    dataLaunched.eng = .launched ∧ dataLaunched.latch.op = 3 ∧ dataLaunched.latch.den = true
      ∧ dataLaunched.latch.addr.toNat + min dataLaunched.latch.arg0.toNat dataLaunched.wcur.toNat
        ≤ bmemSize dataLaunched.par := by decide

/-- A WRITE open just launched. -/
def openLaunched : State := readyAt 3 false 5 0 0 0 .launched []

theorem witness_WriteOpenSteps :
    (at_ 3 false 5 0 0 0 .launched []).family = .unknown ∧ openLaunched.eng = .launched ∧ openLaunched.family ≠ .unknown
      ∧ (openAt 0 .openCheck []).wopen = true ∧ { openLaunched with eng := .openCheck }.wopen = false
      ∧ { openLaunched with eng := .gap }.eng = .gap ∧ { openLaunched with eng := .openToken }.eng = .openToken
      ∧ { openLaunched with eng := .desel .error }.eng = .desel .error
      ∧ { openLaunched with eng := .fin .ok }.eng = .fin .ok := by decide

theorem witness_WriteOpenOpensOrFails :
    openLaunched.eng = .launched ∧ openLaunched.latch.op = 3 ∧ openLaunched.latch.den = false
      ∧ openLaunched.latch.arg0 ≠ 0 ∧ openLaunched.family ≠ .unknown ∧ openLaunched.wopen = false := by decide

theorem witness_WriteCloseSteps :
    (readyAt 3 false 0 0 0 0 .launched []).wopen = false ∧ (openAt 0 .launched []).wopen = true
      ∧ (openAt 1 (.closePad .op) []).eng = .closePad .op ∧ (openAt 0 (.closeCrc .op true) []).eng = .closeCrc .op true
      ∧ (openAt 0 (.closeResp .op) []).eng = .closeResp .op ∧ (openAt 0 (.closeBusy .op 0) []).eng = .closeBusy .op 0
      ∧ (openAt 0 (.closeDesel .op .ok) []).eng = .closeDesel .op .ok ∧ (openAt 0 (.fin .ok) []).eng = .fin .ok := by decide

theorem witness_WriteCloseAlwaysEndsTheStream :
    (openAt 312 .launched []).eng = .launched ∧ (openAt 312 .launched []).latch.op = 3
      ∧ (openAt 312 .launched []).latch.den = false ∧ (openAt 312 .launched []).latch.arg0 = 0
      ∧ (openAt 312 .launched []).wopen = true ∧ paramsOk (openAt 312 .launched []).par = true := by decide

theorem witness_ReservedOperationsEndWithParErr :
    (at_ 4 false 0 0 0 0 .launched []).eng = .launched ∧ (at_ 4 false 0 0 0 0 .launched []).latch.op ≠ 1
      ∧ (at_ 4 false 0 0 0 0 .launched []).latch.op ≠ 2 ∧ (at_ 4 false 0 0 0 0 .launched []).latch.op ≠ 3 := by decide

theorem witness_WopenWriters :
    (∃ t, exec (.writeOpen 5) { openLaunched with eng := .openToken, cardIn := [0] } = .next t ∧ t.wopen = true)
      ∧ (∃ t, exec .writeClose (openAt 0 (.closeDesel .op .ok) [0]) = .next t ∧ t.wopen = false)
      ∧ ∃ t, moveStep .reset (openAt 0 .idle []) = .next t ∧ t.wopen = false :=
  ⟨⟨_, rfl, by decide⟩, ⟨_, rfl, by decide⟩, ⟨_, rfl, by decide⟩⟩

theorem witness_TimerDivisorIsTheNearest :
    timerDivisor 1000000 8000 = some 124 ∧ 124 ≤ 0xFFFF ∧ 2 * (124 + 1) * 8000 < 2 * 1000000 + 8000
      ∧ 2 * 1000000 < 2 * (124 + 1) * 8000 + 8000
      ∧ headerValid (header (0x28, 0x23) (8, 0) [0, 0x20, 0, 0]) = true
      ∧ timerDivisor 1000000 (field32 (header (0x28, 0x23) (8, 0) [0, 0x20, 0, 0]) 24).toNat = some 110 := by decide

end Sys2Proof.Tests
end

/-! PROOFS. The state rules of 10_state.md: `LOST` (R30), the reserved offsets (R42) and `AREMADD` (R38, R250). -/

namespace Sys2Proof.Machine

open Sys2Proof.Laws.EncodesInFormat (rowFormat)

/-! ### `LOST` through the shared operations

The `lost` component is read off the operation's frame in Laws/Frames.lean. -/

@[simp] theorem regRead_lost (w : Width) (v : Word) (s : State) : (regRead w v s).lost = s.lost := by
  rw [regRead_frame]

theorem regWrite_lost (w : Width) {f : State → State} {s : State} (hf : (f s).lost = s.lost) :
    (regWrite w f s).lost = s.lost := by
  obtain ⟨-, h⟩ | ⟨-, h⟩ := regWrite_cases w f s
  · rw [h]; exact hf
  · rw [h]

theorem regAccess_lost (acc : Access) (v : Word) {f : Word → State → State} {s : State}
    (hf : ∀ x, (f x s).lost = s.lost) : (regAccess acc v f s).lost = s.lost := by
  obtain h | ⟨x, -, h⟩ := regAccess_cases acc v f s
  · rw [h]
  · rw [h]; exact hf x

@[simp] theorem reservedOffset_lost (low : Nat) (acc : Access) (s : State) : (reservedOffset low acc s).lost = s.lost := by
  rw [reservedOffset_frame]

@[simp] theorem windowAccess_lost (a : Nat) (acc : Access) (s : State) : (windowAccess a acc s).lost = s.lost := by
  rw [windowAccess_frame]

@[simp] theorem writeActrl_lost (v : Word) (s : State) : (writeActrl v s).lost = s.lost := by
  rw [writeActrl_frame]

@[simp] theorem tickStep_lost (s : State) : (tickStep s).lost = s.lost := by
  rw [tickStep_frame]

@[simp] theorem cardCommandStep_lost (c : CardCmd) (s : State) : (cardCommandStep c s).lost = s.lost := by
  rw [cardCommandStep_frame]

@[simp] theorem initStep_lost (s : State) : (initStep s).lost = s.lost := by
  rw [initStep_frame]

@[simp] theorem readStep_lost (sector : Word) (offset count : BitVec 10) (dest : Option BAddr) (s : State) :
    (readStep sector offset count dest s).lost = s.lost := by
  rw [readStep_frame]

@[simp] theorem writeDataStep_lost (count : Word) (source : BAddr) (s : State) :
    (writeDataStep count source s).lost = s.lost := by
  rw [writeDataStep_frame]

@[simp] theorem writeOpenStep_lost (sector : Word) (s : State) : (writeOpenStep sector s).lost = s.lost := by
  rw [writeOpenStep_frame]

@[simp] theorem writeCloseStep_lost (s : State) : (writeCloseStep s).lost = s.lost := by
  rw [writeCloseStep_frame]

@[simp] theorem reservedStep_lost (s : State) : (reservedStep s).lost = s.lost := by
  rw [reservedStep_frame]

@[simp] theorem countTimer_lost (s : State) : (countTimer s).lost = s.lost := by
  unfold countTimer; split <;> rfl

@[simp] theorem pwmClock_lost (s : State) : (pwmClock s).lost = s.lost := by
  unfold pwmClock; split <;> rfl

theorem writeCmd_busy (v : Word) {s : State} (hb : busy s = true) : writeCmd v s = { s with lost := true } :=
  if_pos hb

@[simp] theorem writeCmd_lost (v : Word) (s : State) : (writeCmd v s).lost = (busy s || s.lost) := by
  unfold writeCmd
  cases hb : busy s <;> rfl

/-! ### The writers of `LOST` among the instructions -/

theorem lost_eq_of_next {s t u : State} (h : (Host.Outcome.next u : Host.Outcome State Fault Refusal) = .next t)
    (hu : u.lost = s.lost) : t.lost = s.lost :=
  Host.Outcome.next.inj h ▸ hu

/-- No row but the stores to `CMD` and `STATUS` writes `LOST`. -/
theorem exec_lost {i : Instr} {s t : State} (h : exec i s = .next t) (hcmd : ∀ w v, i ≠ .wrCmd w v)
    (hstatus : ∀ w v, i ≠ .wrStatus w v) : t.lost = s.lost := by
  cases i
  case wrCmd w v => exact absurd rfl (hcmd w v)
  case wrStatus w v => exact absurd rfl (hstatus w v)
  case init => exact lost_eq_of_next h (initStep_lost s)
  case read | readSkip => exact lost_eq_of_next h (readStep_lost _ _ _ _ s)
  case writeData => exact lost_eq_of_next h (writeDataStep_lost _ _ s)
  case writeOpen => exact lost_eq_of_next h (writeOpenStep_lost _ s)
  case writeClose => exact lost_eq_of_next h (writeCloseStep_lost s)
  case reservedOp0 | reservedOp47 | reservedOp8F => exact lost_eq_of_next h (reservedStep_lost s)
  case rdCmd | rdStatus | rdActrl | rdAstat | rdArem | rdTdiv | rdDuty => exact lost_eq_of_next h (regRead_lost _ _ s)
  case wrActrl => exact lost_eq_of_next h (regWrite_lost _ (writeActrl_lost _ s))
  case wrAstatSwap | wrAstatUnderrun | wrArem | wrTdiv | wrDuty => exact lost_eq_of_next h (regWrite_lost _ rfl)
  case arg0 | arg1 | addr | wcur | lastr1 | ocr | acur | aremadd | param =>
    exact lost_eq_of_next h (regAccess_lost _ _ fun _ => rfl)
  case reserved407C | reserved80FC => exact lost_eq_of_next h (reservedOffset_lost _ _ s)
  case unmapped100 | unmapped200 | unmapped400 | unmapped800 | unmapped1000 | unmapped2000 | unmapped4000
      | unmapped8000 =>
    exact lost_eq_of_next h rfl
  case bmem => exact lost_eq_of_next h (windowAccess_lost _ _ s)
  case tick => exact lost_eq_of_next h (tickStep_lost s)
  case cmd0 | cmd8 | cmd55 | acmd41 | cmd1 | cmd58 | cmd16 | cmd17 | cmd24 =>
    exact lost_eq_of_next h (cardCommandStep_lost _ s)

/-- A store to `CMD`, of any width, never clears `LOST`. -/
theorem exec_wrCmd_keeps_lost {w : Width} {v : Word} {s t : State} (h : exec (.wrCmd w v) s = .next t)
    (hl : s.lost = true) : t.lost = true :=
  (lost_eq_of_next h (regWrite_lost w (by simp [hl]))).trans hl

/-- A store to `STATUS` clears `LOST` only as the acknowledgement of R30. -/
theorem exec_wrStatus_keeps_lost {w : Width} {v : Word} {s t : State} (h : exec (.wrStatus w v) s = .next t)
    (hl : s.lost = true) : t.lost = true ∨ w = .w32 ∧ v.getLsbD 11 = true := by
  obtain rfl : regWrite w (writeStatus v) s = t := Host.Outcome.next.inj h
  obtain ⟨hw, hs⟩ | ⟨-, hs⟩ := regWrite_cases w (writeStatus v) s <;> rw [hs]
  · cases hv : v.getLsbD 11
    · exact .inl (by simp only [writeStatus, hl, hv, Bool.not_false, Bool.and_true])
    · exact .inr ⟨hw, rfl⟩
  · exact .inl hl

/-- Of the instructions, only the acknowledging store to `STATUS` clears `LOST`. -/
theorem exec_keeps_lost {i : Instr} {s t : State} (h : exec i s = .next t) (hl : s.lost = true) :
    t.lost = true ∨ ∃ v, i = .wrStatus .w32 v ∧ v.getLsbD 11 = true := by
  by_cases hcmd : ∃ w v, i = .wrCmd w v
  · obtain ⟨w, v, rfl⟩ := hcmd
    exact .inl (exec_wrCmd_keeps_lost h hl)
  by_cases hstatus : ∃ w v, i = .wrStatus w v
  · obtain ⟨w, v, rfl⟩ := hstatus
    obtain ht | ⟨rfl, hv⟩ := exec_wrStatus_keeps_lost h hl
    · exact .inl ht
    · exact .inr ⟨v, rfl, hv⟩
  · push Not at hcmd hstatus
    exact .inl ((exec_lost h hcmd hstatus).trans hl)

/-! ### Which access is a store to `STATUS` -/

theorem trim_eq_write_w32 {acc : Access} {v : Word} (h : acc.trim = .write .w32 v) : acc = .write .w32 v := by
  cases acc with
  | read w => cases h
  | write w x =>
    obtain ⟨rfl, hx⟩ := Access.write.inj h
    rw [← hx, trim_w32]

theorem decodeRegister_eq_wrStatus {k : Nat} {acc : Access} {w : Width} {v : Word}
    (h : decodeRegister k acc = .wrStatus w v) : k = 4 ∧ acc = .write w v := by
  unfold decodeRegister at h
  cases acc with
  | read => split at h <;> cases h
  | write =>
    split at h
    case h_5 => cases h; exact ⟨rfl, rfl⟩
    case h_10 => dsimp only at h; split at h <;> cases h
    all_goals cases h

/-- A conditional whose first branch is not the value takes its second. -/
theorem else_of_ite_eq {α : Type} {c : Prop} [Decidable c] {a b x : α} (h : (if c then a else b) = x) (ha : a ≠ x) :
    b = x :=
  ((ite_eq_iff.mp h).resolve_left fun hc => ha hc.2).2

/-- A store to `STATUS` is decoded from an aligned offset of the register space; the ten other ranges of offsets decode to
other rows. -/
theorem decodeAccess_eq_wrStatus {r : HostReq} {w : Width} {v : Word} (h : decodeAccess r = .ok (.wrStatus w v)) :
    r.offset.toNat % 4 = 0 ∧ decodeRegister (r.offset.toNat / 4) r.acc.trim = .wrStatus w v := by
  unfold decodeAccess at h
  obtain ⟨-, hreg⟩ | ⟨-, hrest⟩ := ite_eq_iff.mp h
  · obtain ⟨hal, hdec⟩ | ⟨-, hrej⟩ := ite_eq_iff.mp hreg
    · exact ⟨hal, Except.ok.inj hdec⟩
    · cases hrej
  · iterate 10 replace hrest := else_of_ite_eq hrest (by simp)
    cases hrest

/-- Only a 32-bit store at offset 0x10 decodes to a 32-bit store to `STATUS`. -/
theorem decode_eq_wrStatus_w32 {r : HostReq} {v : Word} (h : decode (.access r) = .ok (.wrStatus .w32 v)) :
    r = { offset := 0x10, acc := .write .w32 v } := by
  obtain ⟨o, acc⟩ := r
  obtain ⟨hal, hdec⟩ : o.toNat % 4 = 0 ∧ decodeRegister (o.toNat / 4) acc.trim = .wrStatus .w32 v :=
    decodeAccess_eq_wrStatus h
  obtain ⟨hk, hacc⟩ := decodeRegister_eq_wrStatus hdec
  have ho : o.toNat = 0x10 := by omega
  rw [BitVec.eq_of_toNat_eq (y := 0x10) ho, trim_eq_write_w32 hacc]

/-! ### What the engine runs -/

theorem decodeOp_format (cmd arg0 arg1 addr : Word) : rowFormat (decodeOp cmd arg0 arg1 addr) = .hostop := by
  unfold decodeOp
  extract_lets den off cnt
  split
  case h_3 => split <;> rfl
  case h_4 =>
    split
    · rfl
    · split <;> rfl
  all_goals rfl

theorem cardCmd_instr_format (c : CardCmd) : rowFormat c.instr = .frame48 := by
  cases c <;> rfl

/-- The engine runs operations and card commands, never a host access or a tick. -/
theorem engineInstr_format {s : State} {i : Instr} (h : engineInstr s = some i) :
    rowFormat i = .hostop ∨ rowFormat i = .frame48 := by
  unfold engineInstr at h
  split at h <;> cases h
  · exact .inr (cardCmd_instr_format _)
  · exact .inl (decodeOp_format _ _ _ _)

/-! ### `LOST` through each move -/

theorem hostMove_keeps_lost {r : HostReq} {s t : State} (h : hostMove r s = .next t) (hl : s.lost = true) :
    t.lost = true ∨ ∃ v, r = { offset := 0x10, acc := .write .w32 v } ∧ v.getLsbD 11 = true := by
  unfold hostMove at h
  cases hd : decode (.access r) with
  | error e =>
    rw [hd] at h
    exact .inl ((lost_eq_of_next h rfl).trans hl)
  | ok i =>
    rw [hd] at h
    obtain ht | ⟨v, rfl, hv⟩ := exec_keeps_lost h hl
    · exact .inl ht
    · exact .inr ⟨v, decode_eq_wrStatus_w32 hd, hv⟩

theorem engineMove_keeps_lost {s t : State} (h : engineMove s = .next t) (hl : s.lost = true) : t.lost = true := by
  unfold engineMove at h
  cases hi : engineInstr s with
  | none =>
    rw [hi] at h
    exact (lost_eq_of_next h rfl).trans hl
  | some i =>
    rw [hi] at h
    obtain ht | ⟨v, rfl, -⟩ := exec_keeps_lost h hl
    · exact ht
    · exact absurd (engineInstr_format hi) (by simp [rowFormat])

theorem timerMove_lost {s t : State} (h : timerMove s = .next t) : t.lost = s.lost := by
  unfold timerMove at h
  split at h
  · exact lost_eq_of_next h (tickStep_lost (restartTimer s))
  · exact lost_eq_of_next h (countTimer_lost s)

/-- Settles O16: the two stores are exact next states, and every other row and move keeps `LOST`. -/
theorem lostIsStickyUntilAcknowledged : Obligations.LostIsStickyUntilAcknowledged := by
  refine ⟨fun s v hb => ?_, fun s v => rfl, fun m s t h hl => ?_⟩
  · change Host.Outcome.next (respond .done (writeCmd v s)) = _
    rw [writeCmd_busy v hb]; rfl
  · cases m with
    | host r =>
      obtain ht | ⟨v, rfl, hv⟩ := hostMove_keeps_lost h hl
      · exact .inl ht
      · exact .inr (.inr ⟨v, rfl, hv⟩)
    | engine => exact .inl (engineMove_keeps_lost h hl)
    | tclk => exact .inl ((timerMove_lost h).trans hl)
    | pclk => exact .inl ((lost_eq_of_next h (pwmClock_lost s)).trans hl)
    | reset => exact .inr (.inl rfl)

/-! ### Reserved offsets (R42) -/

theorem reservedOffset_aligned {low : Nat} (h : low % 4 = 0) (acc : Access) (s : State) :
    reservedOffset low acc s = regAccess acc 0 ignoreWrite s :=
  if_pos h

theorem exec_reserved407C_aligned {lo : BitVec 6} (h : lo.toNat % 4 = 0) (acc : Access) (s : State) :
    exec (.reserved407C lo acc) s = .next (regAccess acc 0 ignoreWrite s) :=
  congrArg Host.Outcome.next (reservedOffset_aligned h acc s)

theorem exec_reserved80FC_aligned {lo : BitVec 7} (h : lo.toNat % 4 = 0) (acc : Access) (s : State) :
    exec (.reserved80FC lo acc) s = .next (regAccess acc 0 ignoreWrite s) :=
  congrArg Host.Outcome.next (reservedOffset_aligned h acc s)

theorem decode_reserved407C {o : Offset} (acc : Access) (h1 : 0x40 ≤ o.toNat) (h2 : o.toNat < 0x80) :
    decode (.access ⟨o, acc⟩) = .ok (.reserved407C (BitVec.ofNat 6 o.toNat) acc.trim) := by
  simp only [decode, decodeAccess]
  rw [if_neg (by omega), if_pos h2]

theorem decode_reserved80FC {o : Offset} (acc : Access) (h1 : 0x80 ≤ o.toNat) (h2 : o.toNat < 0x100) :
    decode (.access ⟨o, acc⟩) = .ok (.reserved80FC (BitVec.ofNat 7 o.toNat) acc.trim) := by
  simp only [decode, decodeAccess]
  rw [if_neg (by omega), if_neg (by omega), if_pos h2]

/-- An aligned access to a reserved offset is one of a register that reads 0 and is written by nothing, whichever of the
two rows holds it. -/
theorem hostMove_reserved {o : Offset} (acc : Access) (h1 : 0x40 ≤ o.toNat) (h2 : o.toNat < 0x100)
    (hal : o.toNat % 4 = 0) (s : State) :
    hostMove ⟨o, acc⟩ s = .next (regAccess acc.trim 0 ignoreWrite s) := by
  by_cases h : o.toNat < 0x80
  · rw [hostMove_decoded (decode_reserved407C acc h1 h)]
    exact exec_reserved407C_aligned (by rw [BitVec.toNat_ofNat]; omega) _ s
  · rw [hostMove_decoded (decode_reserved80FC acc (by omega) h2)]
    exact exec_reserved80FC_aligned (by rw [BitVec.toNat_ofNat]; omega) _ s

/-- Settles O19. -/
theorem reservedOffsetsReadZeroAndIgnoreStores : Obligations.ReservedOffsetsReadZeroAndIgnoreStores := by
  refine ⟨fun s o v h1 h2 hal => ?_, fun s lo v hal => ?_, fun s lo v hal => ?_⟩
  · exact ⟨hostMove_reserved _ h1 (by omega) hal s, hostMove_reserved _ h1 (by omega) hal s⟩
  · exact ⟨exec_reserved407C_aligned hal _ s, exec_reserved407C_aligned hal _ s⟩
  · exact ⟨exec_reserved80FC_aligned hal _ s, exec_reserved80FC_aligned hal _ s⟩

/-! ### `AREMADD` (R38, R250) -/

/-- A clock at which the timer expires restarts it and ticks. -/
theorem timerMove_expiring {s : State} (hten : s.ten = true) (hexp : s.tdiv.toNat ≤ s.tcnt.toNat) :
    timerMove s = exec .tick { s with tcnt := 0 } :=
  if_pos (by simp [timerExpires, hten, hexp])

theorem runMoves_singleton (m : Move) (s : State) : runMoves [m] s = moveStep m s := by
  simp only [runMoves]
  cases moveStep m s <;> rfl

/-- Settles O26: in the cycle of R72 the timer's clock starts from the state the add left. -/
theorem aremAddIsAnIndivisibleAdd : Obligations.AremAddIsAnIndivisibleAdd := by
  refine ⟨fun s v => ⟨_, rfl, rfl, BitVec.toNat_add s.arem v⟩, fun s => rfl, fun s v hten hexp => ?_⟩
  calc runMoves [.host (remAdd v), .tclk] s
      = runMoves [.tclk] { s with arem := s.arem + v, resp := .done } := runMoves_cons _ _ (hostMove_remAdd v s)
    _ = timerMove { s with arem := s.arem + v, resp := .done } := runMoves_singleton _ _
    _ = exec .tick { s with arem := s.arem + v, resp := .done, tcnt := 0 } := timerMove_expiring hten hexp

end Sys2Proof.Machine

/-! PROOFS. The reserved operations of 43_block_io.md (R224). -/

namespace Sys2Proof.Machine

theorem reservedStep_launched {s : State} (h : s.eng = .launched) :
    reservedStep s = { s with result := .parErr, eng := .idle } := by
  unfold reservedStep
  rw [h]; rfl

/-- An operation other than INIT, READ and WRITE takes the step of the reserved operations, whichever of the three rows
its `OP` is in. -/
theorem engineMove_reserved {s : State} (h1 : s.latch.op ≠ 1) (h2 : s.latch.op ≠ 2) (h3 : s.latch.op ≠ 3)
    (hidle : s.eng ≠ .idle) (hcmd : ∀ r c p, s.eng ≠ .cmd r c p) : engineMove s = .next (reservedStep s) := by
  rw [engineMove_op s hidle hcmd]
  obtain h | ⟨lo, h⟩ | ⟨lo, h⟩ := launchedInstr_reserved s.latch h1 h2 h3 <;> rw [h] <;> rfl

theorem busy_of_launched {s : State} (h : s.eng = .launched) : busy s = true := by
  simp [busy, h]

/-- Settles O57: each reserved row, and the engine at a latched reserved operation, takes `reservedStep`. -/
theorem reservedOperationsEndWithParErr : Obligations.ReservedOperationsEndWithParErr := by
  refine ⟨fun s h h1 h2 h3 => ⟨busy_of_launched h, ?_⟩, fun s h => ?_⟩
  · rw [engineMove_reserved h1 h2 h3 (by simp [h]) (by simp [h]), reservedStep_launched h]
  · rw [← reservedStep_launched h]
    exact ⟨rfl, fun _ => rfl, fun _ => rfl⟩

end Sys2Proof.Machine

/-! PROOFS. The count and the divisor of 44_audio_fifo.md: stores to `AREM` (R249) and `TDIV` (R251), and the timer clock
that compares with the divisor (R243, R244). -/

namespace Sys2Proof.Machine

theorem exec_wrArem_w32 (v : Word) (s : State) :
    exec (.wrArem .w32 v) s = .next { s with arem := v, resp := .done } := rfl

theorem exec_wrTdiv_w32 (v : Word) (s : State) :
    exec (.wrTdiv .w32 v) s = .next { s with tdiv := v.extractLsb' 0 16, resp := .done } := rfl

theorem drained_iff (s : State) : drained s = true ↔ s.arem = 0 :=
  decide_eq_true_iff

/-- A clock before a running timer expires only counts. -/
theorem timerMove_counting {s : State} (hten : s.ten = true) (hlt : s.tcnt.toNat < s.tdiv.toNat) :
    timerMove s = .next { s with tcnt := s.tcnt + 1 } := by
  calc timerMove s = .next (countTimer s) := if_neg (by simp [timerExpires, hlt])
    _ = .next { s with tcnt := s.tcnt + 1 } := congrArg _ (if_pos hten)

/-- Settles O25: the next state holds the stored word as its count, and `DRAINED` is computed from the count. -/
theorem aremStoreReplacesTheCount : Obligations.AremStoreReplacesTheCount :=
  fun s v => ⟨_, exec_wrArem_w32 v s, rfl, drained_iff _⟩

/-- Settles O27: the store leaves `TEN` and `TCNT`, so the next clock's comparison is that of the old count with the new
divisor. -/
theorem tdivStoreIsUsedAtTheNextClock : Obligations.TdivStoreIsUsedAtTheNextClock := by
  refine fun s v => ⟨_, exec_wrTdiv_w32 v s, rfl, fun hten hle => ?_, fun hten hlt => ?_⟩
  · exact timerMove_expiring hten hle
  · exact timerMove_counting hten hlt

end Sys2Proof.Machine

/-! PROOFS. The encodings of 30_encoding.md: the decoder and the encoder (R90 to R99). -/

namespace Sys2Proof.Machine

/-! ### Access values and their widths (R64) -/

theorem trim_of_fits {w : Width} {v : Word} (h : w.fits v = true) : w.trim v = v := by
  cases w with
  | w8 =>
    have hv : v.toNat < 2 ^ 8 := of_decide_eq_true h
    exact BitVec.eq_of_toNat_eq (by simp [Width.trim]; omega)
  | w16 =>
    have hv : v.toNat < 2 ^ 16 := of_decide_eq_true h
    exact BitVec.eq_of_toNat_eq (by simp [Width.trim]; omega)
  | w32 => rfl
  | w64 => rfl

theorem fits_trim (w : Width) (v : Word) : w.fits (w.trim v) = true := by
  cases w with
  | w8 => simp [Width.fits, Width.trim]; omega
  | w16 => simp [Width.fits, Width.trim]; omega
  | w32 => rfl
  | w64 => rfl

theorem access_trim_of_wf {acc : Access} (h : acc.wf = true) : acc.trim = acc := by
  cases acc with
  | read w => rfl
  | write w v => exact congrArg (Access.write w) (trim_of_fits h)

theorem access_trim_wf (acc : Access) : acc.trim.wf = true := by
  cases acc with
  | read w => rfl
  | write w v => exact fits_trim w v

/-! ### Card command frames (R95 to R98) -/

/-- The bytes of a word, most significant first, are the word. -/
theorem append_bytes (a : Word) :
    a.extractLsb' 24 8 ++ a.extractLsb' 16 8 ++ a.extractLsb' 8 8 ++ a.extractLsb' 0 8 = a := by
  rw [BitVec.extractLsb'_append_extractLsb'_eq_extractLsb' (start₂ := 24) (start₁ := 16) (len₁ := 8) rfl,
    BitVec.extractLsb'_append_extractLsb'_eq_extractLsb' (start₂ := 16) (start₁ := 8) (len₁ := 8) rfl,
    BitVec.extractLsb'_append_extractLsb'_eq_extractLsb' (start₂ := 8) (start₁ := 0) (len₁ := 8) rfl]
  exact BitVec.extractLsb'_eq_self

theorem ofByte_commandByte (c : CardCmd) : CardCmd.ofByte c.commandByte c.arg = some c := by
  cases c with
  | acmd41 hcs => cases hcs <;> rfl
  | cmd17 | cmd24 => simp [CardCmd.ofByte, CardCmd.commandByte, CardCmd.index, CardCmd.arg]
  | _ => rfl

theorem decodeFrame_frame (c : CardCmd) : decodeFrame c.frame = .ok c.instr := by
  simp only [decodeFrame, CardCmd.frame, CardCmd.frameByte, append_bytes, ofByte_commandByte, ne_eq, not_true_eq_false,
    if_false]

/-- A frame's command byte and argument bytes name its command. -/
theorem frame_injective {c d : CardCmd} (h : c.frame = d.frame) : c = d := by
  simp only [CardCmd.frame, CardCmd.frameByte, List.cons.injEq] at h
  obtain ⟨hb, h3, h2, h1, h0, -⟩ := h
  have harg : c.arg = d.arg := by rw [← append_bytes c.arg, h3, h2, h1, h0, append_bytes]
  exact Option.some.inj (by rw [← ofByte_commandByte c, hb, harg, ofByte_commandByte])

/-- Settles O4: the layout command by command; the frame determines the command byte and the argument. -/
theorem frameLayoutAndFaithfulness : Obligations.FrameLayoutAndFaithfulness := by
  refine ⟨fun c => ?_, fun c d => frame_injective⟩
  cases c <;> simp [CardCmd.frame, CardCmd.frameByte, CardCmd.commandByte, CardCmd.index, CardCmd.trailer]

/-! ### Operation words (R91 to R94) -/

/-- Settles O3: `decodeOp` looks at the fields `OP` and `DEN` of the word only. -/
theorem reservedCmdBitsAreIgnored : Obligations.ReservedCmdBitsAreIgnored := by
  intro c d arg0 arg1 addr hop hden
  have hlow (n : Nat) (hn : 0 + n ≤ 4) : c.extractLsb' 0 n = d.extractLsb' 0 n := by
    rw [← BitVec.extractLsb'_extractLsb'_of_le hn, hop, BitVec.extractLsb'_extractLsb'_of_le hn]
  simp only [decodeOp, hop, hden, hlow 2 (by decide), hlow 3 (by decide)]

/-- Settles O5. -/
theorem sampleWordsDecode : Obligations.SampleWordsDecode := by
  unfold Obligations.SampleWordsDecode
  decide


/-! ### Host accesses (R20, R63) -/

theorem decode_accessAt_register {k : Nat} {acc : Access} (hk : k < 16) (h : acc.wf = true) :
    decode (accessAt (4 * k) acc) = .ok (decodeRegister k acc) := by
  have ho : (BitVec.ofNat 17 (4 * k)).toNat = 4 * k := by rw [BitVec.toNat_ofNat]; omega
  simp only [decode, accessAt, decodeAccess, ho, access_trim_of_wf h]
  rw [if_pos (by omega), if_pos (by omega), Nat.mul_div_cancel_left k (by decide)]

/-- The low bits of an offset in a row's range are the row's operand. -/
theorem ofNat_base_add {n b : Nat} (hb : b % 2 ^ n = 0) (lo : BitVec n) : BitVec.ofNat n (b + lo.toNat) = lo :=
  BitVec.eq_of_toNat_eq (by rw [BitVec.toNat_ofNat, Nat.add_mod, hb, Nat.zero_add, Nat.mod_mod, Nat.mod_eq_of_lt lo.isLt])

theorem toNat_ofNat_offset {o : Nat} (h : o < 2 ^ 17) : (BitVec.ofNat 17 o).toNat = o := by
  rw [BitVec.toNat_ofNat, Nat.mod_eq_of_lt h]

/-! ### The round trip -/

/-- Settles O1: row by row, each format by its own decoder. -/
theorem decodeOfEncodeIsIdentity : Obligations.DecodeOfEncodeIsIdentity := by
  intro i h
  cases i
  case init | writeClose | reservedOp0 | tick => rfl
  case read | readSkip => simp only [encode, decode, decodeOp, arg1Word_offset, arg1Word_count, setWidth_extract_addr]; rfl
  case writeData => simp only [encode, decode, decodeOp, setWidth_extract_addr]; rfl
  case writeOpen => exact congrArg Except.ok (if_neg (of_decide_eq_true h))
  case reservedOp47 lo => revert lo; decide
  case reservedOp8F lo => revert lo; decide
  case wrCmd | rdCmd => exact decode_accessAt_register (k := 0) (by decide) h
  case arg0 => exact decode_accessAt_register (k := 1) (by decide) h
  case arg1 => exact decode_accessAt_register (k := 2) (by decide) h
  case addr => exact decode_accessAt_register (k := 3) (by decide) h
  case wrStatus | rdStatus => exact decode_accessAt_register (k := 4) (by decide) h
  case wcur => exact decode_accessAt_register (k := 5) (by decide) h
  case lastr1 => exact decode_accessAt_register (k := 6) (by decide) h
  case ocr => exact decode_accessAt_register (k := 7) (by decide) h
  case wrActrl | rdActrl => exact decode_accessAt_register (k := 8) (by decide) h
  case rdAstat => exact decode_accessAt_register (k := 9) (by decide) h
  case wrAstatSwap w v =>
    obtain ⟨hv, hu⟩ := Bool.and_eq_true_iff.mp h
    exact (decode_accessAt_register (k := 9) (acc := .write w v) (by decide) hv).trans
      (congrArg Except.ok (if_neg (by simpa using hu)))
  case wrAstatUnderrun w v =>
    obtain ⟨hv, hu⟩ := Bool.and_eq_true_iff.mp h
    exact (decode_accessAt_register (k := 9) (acc := .write w v) (by decide) hv).trans (congrArg Except.ok (if_pos hu))
  case acur => exact decode_accessAt_register (k := 10) (by decide) h
  case wrArem | rdArem => exact decode_accessAt_register (k := 11) (by decide) h
  case aremadd => exact decode_accessAt_register (k := 12) (by decide) h
  case wrTdiv | rdTdiv => exact decode_accessAt_register (k := 13) (by decide) h
  case wrDuty | rdDuty => exact decode_accessAt_register (k := 14) (by decide) h
  case param => exact decode_accessAt_register (k := 15) (by decide) h
  case reserved407C | reserved80FC | unmapped100 | unmapped200 | unmapped400 | unmapped800 | unmapped1000 | unmapped2000
      | unmapped4000 | unmapped8000 | bmem =>
    simp (disch := omega) only [encode, accessAt, decode, decodeAccess, toNat_ofNat_offset, if_neg, if_pos,
      ofNat_base_add, access_trim_of_wf h]
  case cmd0 => exact decodeFrame_frame .cmd0
  case cmd8 => exact decodeFrame_frame .cmd8
  case cmd55 => exact decodeFrame_frame .cmd55
  case acmd41 hcs => exact decodeFrame_frame (.acmd41 hcs)
  case cmd1 => exact decodeFrame_frame .cmd1
  case cmd58 => exact decodeFrame_frame .cmd58
  case cmd16 => exact decodeFrame_frame .cmd16
  case cmd17 a => exact decodeFrame_frame (.cmd17 a)
  case cmd24 a => exact decodeFrame_frame (.cmd24 a)

/-! ### The decoder gives well-formed instructions only -/

theorem decodeOp_wf (cmd arg0 arg1 addr : Word) : (decodeOp cmd arg0 arg1 addr).wf = true := by
  unfold decodeOp
  extract_lets den off cnt
  split
  case h_3 => split <;> rfl
  case h_4 =>
    split
    · rfl
    · split
      · rfl
      · next ha => exact decide_eq_true ha
  all_goals rfl

theorem decodeRegister_wf (k : Nat) {acc : Access} (h : acc.wf = true) : (decodeRegister k acc).wf = true := by
  unfold decodeRegister
  cases acc with
  | read w => split <;> rfl
  | write w v =>
    split
    case h_10 =>
      dsimp only
      split
      · next hu => exact Bool.and_eq_true_iff.mpr ⟨h, hu⟩
      · next hu => exact Bool.and_eq_true_iff.mpr ⟨h, by simpa using hu⟩
    all_goals exact h

theorem decodeAccess_wf {r : HostReq} {i : Instr} (h : decodeAccess r = .ok i) : i.wf = true := by
  have hacc := access_trim_wf r.acc
  unfold decodeAccess at h
  extract_lets o acc at h
  split at h
  · split at h
    · cases h; exact decodeRegister_wf _ hacc
    · cases h
  · repeat' split at h
    all_goals cases h; exact hacc

theorem cardCmd_instr_wf (c : CardCmd) : c.instr.wf = true := by
  cases c <;> rfl

theorem decodeFrame_wf {bytes : List Byte} {i : Instr} (h : decodeFrame bytes = .ok i) : i.wf = true := by
  unfold decodeFrame at h
  split at h
  · extract_lets arg at h
    split at h
    · cases h
    · next c _ =>
      replace h := else_of_ite_eq (else_of_ite_eq h (by simp)) (by simp)
      exact Except.ok.inj h ▸ cardCmd_instr_wf c
  · cases h

/-- Settles O2: by the form that is read. -/
theorem decodeGivesWellFormed : Obligations.DecodeGivesWellFormed := by
  intro f i h
  cases f with
  | op cmd arg0 arg1 addr => exact Except.ok.inj h ▸ decodeOp_wf cmd arg0 arg1 addr
  | access r => exact decodeAccess_wf h
  | event => exact Except.ok.inj h ▸ rfl
  | frame bytes => exact decodeFrame_wf h

end Sys2Proof.Machine

/-! PROOFS. The step (R71, R21, R139) and the reset state (R50, R330 to R333). -/

namespace Sys2Proof.Machine

/-! ### The step -/

theorem step_of_nextMove {s : State} {m : Move} (h : nextMove s = m) : step s = moveStep m (takeMove s) := by
  rw [step, h]

/-- Taking a move from the environment leaves the block alone. -/
theorem takeMove_cases (s : State) :
    (∃ n, takeMove s = { s with draws := n }) ∨ ∃ ms, takeMove s = { s with moves := ms } := by
  unfold takeMove
  split
  · exact .inl ⟨_, rfl⟩
  · exact .inr ⟨_, rfl⟩

/-- Settles O6: each agent's move by the step lemma of that move. -/
theorem stepRunsTheDecodedInstruction : Obligations.StepRunsTheDecodedInstruction := by
  have engineInstr_takeMove (s : State) : engineInstr (takeMove s) = engineInstr s := by
    obtain ⟨n, h⟩ | ⟨ms, h⟩ := takeMove_cases s <;> rw [h] <;> rfl
  refine ⟨fun s r i hm hd => ?_, fun s i hm hi => ?_, fun s hm hten hexp => ?_, fun s hm hb => ?_⟩
  · rw [step_of_nextMove hm]
    exact hostMove_decoded hd _
  · rw [step_of_nextMove hm, moveStep, engineMove, engineInstr_takeMove, hi]
  · rw [step_of_nextMove hm]
    obtain ⟨n, h⟩ | ⟨ms, h⟩ := takeMove_cases s <;> rw [h] <;> exact timerMove_expiring hten hexp
  · rw [step_of_nextMove hm]
    have hidle : s.eng = .idle := by simpa [busy] using hb
    obtain ⟨n, h⟩ | ⟨ms, h⟩ := takeMove_cases s <;> rw [h] <;> exact engineMove_idle _ hidle

theorem moveStep_next (m : Move) (s : State) : ∃ t, moveStep m s = .next t := by
  cases m with
  | host r =>
    simp only [moveStep, hostMove]
    split
    · exact exec_next _ s
    · exact ⟨_, rfl⟩
  | engine => exact engineMove_next s
  | tclk =>
    simp only [moveStep, timerMove]
    split
    · exact exec_next _ _
    · exact ⟨_, rfl⟩
  | pclk => exact ⟨_, rfl⟩
  | reset => exact ⟨_, rfl⟩

/-- Settles O7. -/
theorem everyStepAnswersANextState : Obligations.EveryStepAnswersANextState :=
  fun _ => moveStep_next _ _

/-! ### Reset -/

theorem memRead_of_mem_nil {s : State} (h : s.mem = []) (a : Nat) : memRead s a = Config.bmemUnwritten s.epoch a := by
  simp only [memRead, h, Memory.find]

/-- Settles O8: the words with fields by evaluating them on the reset fields, every other value by definition. -/
theorem resetGivesEveryRegisterItsValue : Obligations.ResetGivesEveryRegisterItsValue := by
  rintro p s rfl
  have hcmd : cmdWord (State.resetOf p) = 0 := by simp [cmdWord, State.resetOf]
  have harg1 : arg1Reg (State.resetOf p) = 0 := by simp [arg1Reg, arg1Word, State.resetOf]
  have hstatus : statusWord (State.resetOf p) = 4 := by
    simp [statusWord, State.resetOf, busy, ready, Family.code, Result.code]
  have hactrl : actrlWord (State.resetOf p) = 0 := by simp [actrlWord, State.resetOf]
  have hastat : astatWord (State.resetOf p) = 8 := by simp [astatWord, drained, State.resetOf]
  exact ⟨hcmd, rfl, harg1, rfl, hstatus, rfl, rfl, rfl, hactrl, hastat, rfl, rfl, rfl, rfl, rfl, rfl, rfl, rfl,
    memRead_of_mem_nil rfl, rfl, rfl, rfl, rfl, rfl⟩

/-- Settles O9. -/
theorem resetInputResetsTheBlockOnly : Obligations.ResetInputResetsTheBlockOnly :=
  fun _ => ⟨_, rfl, rfl, rfl, rfl, memRead_of_mem_nil rfl⟩

/-- Settles O10. -/
theorem resetMeetsTheInvariant : Obligations.ResetMeetsTheInvariant := by
  intro p hp
  exact {
    params := hp
    block := nofun
    wcur := Nat.zero_le _
    acur := Nat.zero_le _
    pcnt := fun _ => rfl
    memory := rfl
    inside := rfl
    engine := rfl }

end Sys2Proof.Machine

/-! PROOFS. The host's accesses to the registers of 10_state.md and to block memory (20_memory.md). -/

namespace Sys2Proof.Machine

/-! ### The fields of the words the registers read as (R23, R25, R27, R34, R35) -/

/-- A bit above the low field of a word is a bit of the rest. -/
theorem getLsbD_append_above {m n i : Nat} (x : BitVec m) (y : BitVec n) (h : n ≤ i) :
    (x ++ y).getLsbD i = x.getLsbD (i - n) := by
  rw [BitVec.getLsbD_append, if_neg (by omega)]

theorem getLsbD_append_bit {m : Nat} (x : BitVec m) (b : Bool) : (x ++ bit b).getLsbD 0 = b := by
  rw [BitVec.getLsbD_append, if_pos (by decide)]
  cases b <;> rfl

/-- Settles O12. -/
theorem fieldRegisterLoads : Obligations.FieldRegisterLoads := by
  intro s
  refine ⟨⟨statusWord s, rfl, statusWord_bit0 s, ?_, ?_, ?_, ?_, ?_, ?_, ?_, ?_, ?_⟩, ⟨cmdWord s, rfl, ?_, ?_, ?_, ?_⟩,
    ⟨arg1Reg s, rfl, arg1Word_offset _ _, ?_, arg1Word_count _ _, ?_⟩, ⟨actrlWord s, rfl, ?_, ?_, ?_, ?_⟩,
    ⟨astatWord s, rfl, ?_, ?_, ?_, ?_, ?_⟩⟩
  all_goals simp (disch := decide) only [statusWord, cmdWord, arg1Reg, arg1Word, actrlWord, astatWord,
    getLsbD_append_above, getLsbD_append_bit, BitVec.extractLsb'_append_eq_of_le,
    BitVec.extractLsb'_append_eq_of_add_le, BitVec.extractLsb'_eq_self, Nat.reduceSub]
  case refine_1 => cases s.result <;> rfl
  case refine_2 => rfl
  case refine_3 => cases s.family <;> rfl
  case refine_23 => rfl
  all_goals rfl

/-- Settles O13: each load by its row's arm, each ignored store too. -/
theorem valueRegisterLoadsAndIgnoredStores : Obligations.ValueRegisterLoadsAndIgnoredStores := by
  refine ⟨fun s => ⟨rfl, rfl, rfl, rfl, rfl, rfl, rfl, rfl, rfl, rfl, rfl⟩, fun s v i hi => ?_⟩
  simp only [List.mem_cons, List.not_mem_nil, or_false] at hi
  obtain rfl | rfl | rfl | rfl | rfl := hi <;> rfl

/-- Settles O14. -/
theorem operandRegisterStores : Obligations.OperandRegisterStores :=
  fun _ _ => ⟨rfl, rfl, rfl⟩

/-! ### The launch (R210) -/

/-- The latches of a launch name the operation the stored word and the operand registers name (R94). -/
theorem launchedInstr_capture (v : Word) (s : State) :
    launchedInstr (capture v s) = decodeOp v s.arg0 (arg1Reg s) (addrWord s) :=
  reservedCmdBitsAreIgnored _ _ _ _ _ (launchedInstr_cmd_op _) (launchedInstr_cmd_den _)

theorem writeCmd_idle (v : Word) {s : State} (hb : busy s = false) :
    writeCmd v s = { s with cmdOp := v.extractLsb' 0 4, cmdDen := v.getLsbD 8, latch := capture v s, eng := .launched } :=
  if_neg (by simp [hb])

/-- Settles O15. -/
theorem cmdStoreLaunchesWhenIdle : Obligations.CmdStoreLaunchesWhenIdle := by
  intro s v hb
  refine ⟨respond .done (writeCmd v s), rfl, ?_⟩
  rw [writeCmd_idle v hb]
  exact ⟨rfl, rfl, congrArg some (launchedInstr_capture v s)⟩

/-! ### Which accesses are accepted (R63 to R65) -/

def accessWidth (acc : Access) : Width :=
  match acc with
  | .read w => w
  | .write w _ => w

/-- A load was answered with data, a store with its completion. -/
def Answered (acc : Access) (t : State) : Prop :=
  match acc with
  | .read _ => ∃ v, t.resp = .data v
  | .write _ _ => t.resp = .done

@[simp] theorem accessWidth_trim (acc : Access) : accessWidth acc.trim = accessWidth acc := by
  cases acc <;> rfl

@[simp] theorem answered_trim (acc : Access) (t : State) : Answered acc.trim t ↔ Answered acc t := by
  cases acc <;> rfl

/-- A register access of 32 bits is answered. -/
theorem regAccess_answered {acc : Access} (h : accessWidth acc = .w32) (v : Word) (f : Word → State → State) (s : State) :
    Answered acc (regAccess acc v f s) := by
  cases acc with
  | read w => cases h; exact ⟨v, rfl⟩
  | write w x => cases h; exact rfl

/-- A register access of any other width is a bus error. -/
theorem regAccess_busError {acc : Access} (h : accessWidth acc ≠ .w32) (v : Word) (f : Word → State → State) (s : State) :
    regAccess acc v f s = busError s := by
  cases acc with
  | read w =>
    cases w with
    | w32 => exact absurd rfl h
    | _ => rfl
  | write w x =>
    cases w with
    | w32 => exact absurd rfl h
    | _ => rfl

theorem windowAccess_answered {a : Nat} {acc : Access} {s : State}
    (h : windowAccepts s.par (accessWidth acc) a = true) : Answered acc (windowAccess a acc s) := by
  cases acc with
  | read w =>
    have hw : windowAccess a (.read w) s = respond (.data (windowRead w a s)) s := if_pos h
    exact ⟨_, by rw [hw]; rfl⟩
  | write w x =>
    have hw : windowAccess a (.write w x) s = respond .done (windowWrite w a x s) := if_pos h
    rw [hw]; rfl

theorem windowAccess_busError {a : Nat} {acc : Access} {s : State}
    (h : windowAccepts s.par (accessWidth acc) a ≠ true) : windowAccess a acc s = busError s := by
  cases acc with
  | read w => exact if_neg h
  | write w x => exact if_neg h

/-- Every row of the register space is an access to one register. -/
theorem exec_decodeRegister (k : Nat) (acc : Access) (s : State) :
    ∃ v f, exec (decodeRegister k acc) s = .next (regAccess acc v f s) := by
  unfold decodeRegister
  split
  case h_10 =>
    cases acc with
    | read w => exact ⟨_, fun _ s => s, rfl⟩
    | write w v =>
      dsimp only
      split <;> exact ⟨0, writeAstat, rfl⟩
  case h_1 | h_5 | h_9 | h_12 | h_14 | h_15 =>
    cases acc with
    | read w => exact ⟨_, fun _ s => s, rfl⟩
    | write w v => exact ⟨0, fun _ => _, rfl⟩
  all_goals exact ⟨_, _, rfl⟩

theorem hostMove_low_aligned {o : Offset} (acc : Access) (ho : o.toNat < 0x100) (hal : o.toNat % 4 = 0) (s : State) :
    ∃ v f, hostMove ⟨o, acc⟩ s = .next (regAccess acc.trim v f s) := by
  by_cases h : o.toNat < 0x40
  · have hd : decode (.access ⟨o, acc⟩) = .ok (decodeRegister (o.toNat / 4) acc.trim) := by
      simp only [decode, decodeAccess]
      rw [if_pos h, if_pos hal]
    rw [hostMove_decoded hd]
    exact exec_decodeRegister _ _ s
  · exact ⟨_, _, hostMove_reserved acc (by omega) ho hal s⟩

theorem hostMove_low_misaligned {o : Offset} (acc : Access) (ho : o.toNat < 0x100) (hal : o.toNat % 4 ≠ 0) (s : State) :
    hostMove ⟨o, acc⟩ s = .next (busError s) := by
  by_cases h1 : o.toNat < 0x40
  · have hd : decode (.access ⟨o, acc⟩) = .error .misalignedRegister := by
      simp only [decode, decodeAccess]
      rw [if_pos h1, if_neg hal]
    rw [hostMove, hd]
  · by_cases h2 : o.toNat < 0x80
    · rw [hostMove_decoded (decode_reserved407C acc (by omega) h2)]
      exact congrArg Host.Outcome.next (if_neg (by rw [BitVec.toNat_ofNat]; omega))
    · rw [hostMove_decoded (decode_reserved80FC acc (by omega) ho)]
      exact congrArg Host.Outcome.next (if_neg (by rw [BitVec.toNat_ofNat]; omega))

theorem hostMove_unmapped {o : Offset} (acc : Access) (h1 : 0x100 ≤ o.toNat) (h2 : o.toNat < 0x10000) (s : State) :
    hostMove ⟨o, acc⟩ s = .next (busError s) := by
  simp only [hostMove, decode, decodeAccess]
  rw [if_neg (by omega), if_neg (by omega), if_neg (by omega)]
  split <;> rename_i heq
  · repeat' split at heq
    all_goals cases heq; rfl
  · rfl

theorem decode_window {o : Offset} (acc : Access) (h : 0x10000 ≤ o.toNat) :
    decode (.access ⟨o, acc⟩) = .ok (.bmem (BitVec.ofNat 16 o.toNat) acc.trim) := by
  simp (disch := omega) only [decode, decodeAccess, if_neg]

theorem hostMove_window {o : Offset} (acc : Access) (h : 0x10000 ≤ o.toNat) (s : State) :
    hostMove ⟨o, acc⟩ s = .next (windowAccess (o.toNat - 0x10000) acc.trim s) := by
  have ha : (BitVec.ofNat 16 o.toNat).toNat = o.toNat - 0x10000 := by
    rw [BitVec.toNat_ofNat]; omega
  rw [hostMove_decoded (decode_window acc h), ← ha]
  rfl

/-- R63, R64: what the block accepts. -/
def Accepted (p : Params) (o : Offset) (w : Width) : Prop :=
  (w = .w32 ∧ o.toNat % 4 = 0 ∧ o.toNat < 0x100)
    ∨ (w = .w8 ∧ 0x10000 ≤ o.toNat ∧ o.toNat < 0x10000 + bmemSize p)
    ∨ (w = .w32 ∧ o.toNat % 4 = 0 ∧ 0x10000 ≤ o.toNat ∧ o.toNat + 4 ≤ 0x10000 + bmemSize p)

theorem accepted_low_iff {p : Params} {o : Offset} {w : Width} (h : o.toNat < 0x100) :
    Accepted p o w ↔ w = .w32 ∧ o.toNat % 4 = 0 := by
  unfold Accepted
  constructor
  · rintro (⟨hw, hal, -⟩ | ⟨-, hlo, -⟩ | ⟨-, -, hlo, -⟩)
    · exact ⟨hw, hal⟩
    · omega
    · omega
  · rintro ⟨hw, hal⟩
    exact .inl ⟨hw, hal, h⟩

theorem not_accepted_unmapped {p : Params} {o : Offset} {w : Width} (h1 : 0x100 ≤ o.toNat) (h2 : o.toNat < 0x10000) :
    ¬ Accepted p o w := by
  rintro (⟨-, -, h⟩ | ⟨-, h, -⟩ | ⟨-, -, h, -⟩) <;> omega

theorem accepted_window_iff {p : Params} {o : Offset} {w : Width} (h : 0x10000 ≤ o.toNat) :
    Accepted p o w ↔ windowAccepts p w (o.toNat - 0x10000) = true := by
  cases w <;> simp [Accepted, windowAccepts] <;> omega

/-- An accepted access is answered; every other is a bus error (R65). -/
theorem hostMove_answer (s : State) (o : Offset) (acc : Access) :
    (Accepted s.par o (accessWidth acc) → ∃ t, hostMove ⟨o, acc⟩ s = .next t ∧ Answered acc t)
      ∧ (¬ Accepted s.par o (accessWidth acc) → hostMove ⟨o, acc⟩ s = .next (busError s)) := by
  by_cases hlow : o.toNat < 0x100
  · rw [accepted_low_iff hlow]
    by_cases hal : o.toNat % 4 = 0
    · obtain ⟨v, f, h⟩ := hostMove_low_aligned acc hlow hal s
      refine ⟨fun ⟨hw, _⟩ => ⟨_, h, ?_⟩, fun hn => ?_⟩
      · rw [← answered_trim]
        exact regAccess_answered (by simpa using hw) v f s
      · rw [h, regAccess_busError (by simpa [hal] using hn)]
    · exact ⟨fun ⟨_, h⟩ => absurd h hal, fun _ => hostMove_low_misaligned acc hlow hal s⟩
  by_cases hmid : o.toNat < 0x10000
  · exact ⟨fun h => absurd h (not_accepted_unmapped (by omega) hmid), fun _ => hostMove_unmapped acc (by omega) hmid s⟩
  · rw [accepted_window_iff (by omega), hostMove_window acc (by omega)]
    refine ⟨fun h => ⟨_, rfl, ?_⟩, fun h => ?_⟩
    · rw [← answered_trim]
      exact windowAccess_answered (by simpa using h)
    · rw [windowAccess_busError (by simpa using h)]

/-- Settles O17: `hostMove_answer`, for a load and for a store. -/
theorem onlyAcceptedAccessesAreNoBusError : Obligations.OnlyAcceptedAccessesAreNoBusError := by
  rintro s ⟨o, acc⟩ w hacc
  obtain ⟨hyes, hno⟩ := hostMove_answer s o acc
  obtain rfl | ⟨v, rfl⟩ : acc = .read w ∨ ∃ v, acc = .write w v := hacc
  · split
    · next h => simpa [Answered] using hyes h
    · next h => exact hno h
  · split
    · next h => simpa [Answered] using hyes h
    · next h => exact hno h

/-- Settles O18. -/
theorem unmappedOffsetsAreBusErrors : Obligations.UnmappedOffsetsAreBusErrors :=
  fun _ _ => ⟨fun _ => rfl, fun _ => rfl, fun _ => rfl, fun _ => rfl, fun _ => rfl, fun _ => rfl, fun _ => rfl,
    fun _ => rfl⟩

/-! ### Block memory (R62, R68) -/

theorem exec_bmem_read {w : Width} {a : BAddr} {s : State} (h : windowAccepts s.par w a.toNat = true) :
    exec (.bmem a (.read w)) s = .next { s with resp := .data (windowRead w a.toNat s) } :=
  congrArg Host.Outcome.next (if_pos h)

theorem exec_bmem_write {w : Width} {a : BAddr} {s : State} (v : Word) (h : windowAccepts s.par w a.toNat = true) :
    exec (.bmem a (.write w v)) s = .next (respond .done (windowWrite w a.toNat v s)) :=
  congrArg Host.Outcome.next (if_pos h)

@[simp] theorem memReadWord_respond (r : HostResp) (s : State) (a : Nat) :
    memReadWord (respond r s) a = memReadWord s a := rfl

@[simp] theorem memWriteWord_par (a : Nat) (v : Word) (s : State) : (memWriteWord a v s).par = s.par := by
  rw [memWriteWord_frame]

/-- The bytes of a word read, little-endian (R68 (d)). -/
theorem memReadWord_bytes (s : State) (a : Nat) :
    (memReadWord s a).extractLsb' 0 8 = memRead s a ∧ (memReadWord s a).extractLsb' 8 8 = memRead s (a + 1)
      ∧ (memReadWord s a).extractLsb' 16 8 = memRead s (a + 2)
      ∧ (memReadWord s a).extractLsb' 24 8 = memRead s (a + 3) := by
  simp (disch := decide) only [memReadWord, BitVec.extractLsb'_append_eq_of_le, BitVec.extractLsb'_append_eq_of_add_le,
    BitVec.extractLsb'_eq_self, Nat.reduceSub, and_self]

theorem memReadWord_memWriteWord (s : State) (a : Nat) (v : Word) (h : a + 4 ≤ bmemSize s.par) :
    memReadWord (memWriteWord a v s) a = v := by
  obtain ⟨h0, h1, h2, h3⟩ := memRead_memWriteWord s a v h
  rw [memReadWord, h0, h1, h2, h3, append_bytes]

/-- Settles O20. -/
theorem bmemByteAccess : Obligations.BmemByteAccess := by
  intro s a v h
  have hacc : windowAccepts s.par .w8 a.toNat = true := decide_eq_true h
  refine ⟨exec_bmem_read hacc, _, exec_bmem_write v hacc, ?_, ?_, fun x hx => ?_⟩
  · simp only [windowWrite]; rw [memWrite_frame]; rfl
  · exact memRead_memWrite_same s a.toNat _ h
  · exact memRead_memWrite_ne s a.toNat x _ hx

/-- Settles O21: the bytes of a word read and of a word write, and the read of what was written. -/
theorem bmemWordAccessIsLittleEndian : Obligations.BmemWordAccessIsLittleEndian := by
  intro s a v hal h
  have hacc : windowAccepts s.par .w32 a.toNat = true := decide_eq_true ⟨hal, h⟩
  obtain ⟨h0, h1, h2, h3⟩ := memRead_memWriteWord s a.toNat v h
  refine ⟨⟨_, exec_bmem_read hacc, memReadWord_bytes s a.toNat⟩, _, exec_bmem_write v hacc, ?_, h0, h1, h2, h3,
    fun x hx => memRead_memWriteWord_outside s a.toNat x v hx, ?_⟩
  · simp only [windowWrite]; rw [memWriteWord_frame]; rfl
  · rw [exec_bmem_read (by simpa [windowWrite] using hacc)]
    simp only [windowRead, windowWrite, memReadWord_respond, memReadWord_memWriteWord s a.toNat v h]

end Sys2Proof.Machine

/-! PROOFS. The audio FIFO of 44_audio_fifo.md: the register stores, the tick, the timer and the pulse-width output. -/

namespace Sys2Proof.Machine

/-! ### Register stores (R241 to R253) -/

/-- Settles O23: with the index reset and without it. -/
theorem actrlStore : Obligations.ActrlStore := by
  intro s v
  refine ⟨_, rfl, ?_⟩
  unfold regWrite writeActrl
  cases h : v.getLsbD 3 <;> simp [indexReset, respond, midScale]

theorem writeAstat_eq (v : Word) (s : State) :
    writeAstat v s = { s with swap := if v.getLsbD 1 then false else s.swap,
                              underrun := if v.getLsbD 2 then false else s.underrun } := by
  unfold writeAstat
  cases v.getLsbD 1 <;> cases v.getLsbD 2 <;> simp

/-- Settles O24. -/
theorem astatStoreClearsItsFlags : Obligations.AstatStoreClearsItsFlags := by
  have hstore (s : State) (v : Word) : Host.Outcome.next (respond .done (writeAstat v s)) = (Host.Outcome.next
      { s with swap := if v.getLsbD 1 then false else s.swap,
               underrun := if v.getLsbD 2 then false else s.underrun, resp := .done } : Host.Outcome State Fault Refusal) := by
    rw [writeAstat_eq]; rfl
  exact ⟨fun s v => ⟨hstore s v, hstore s v⟩, fun s => hstore s 6⟩

theorem pwmPin_iff (s : State) : pwmPin s = true ↔ s.pen = true ∧ s.pcnt.toNat < s.duty.toNat := by
  simp [pwmPin]

/-- Settles O28. -/
theorem dutyStoreSetsTheLevel : Obligations.DutyStoreSetsTheLevel :=
  fun _ _ => ⟨_, rfl, rfl, pwmPin_iff _⟩

/-! ### The tick (R252, R254) -/

theorem tickStep_drained {s : State} (h : s.arem = 0) : tickStep s = s := if_pos h

theorem tickStep_within {s : State} (h : s.arem ≠ 0) (hcur : s.acur.toNat ≠ s.par.bufSize) : tickStep s = emit s := by
  have hsw : afterSwitch s = s := if_neg (by simp [exhausted, hcur])
  rw [tickStep, if_neg h, hsw]

theorem tickStep_exhausted {s : State} (h : s.arem ≠ 0) (hcur : s.acur.toNat = s.par.bufSize) :
    tickStep s = emit (switchBuffers s) := by
  have hsw : afterSwitch s = switchBuffers s := if_pos (by simp [exhausted, hcur])
  rw [tickStep, if_neg h, hsw]

/-- Settles O29: a drained FIFO, a sample of the active buffer, and a sample after the switch. -/
theorem tickEmitsOneSample : Obligations.TickEmitsOneSample := by
  refine ⟨fun s h => ?_, fun s h hcur => ?_, fun s h hcur => ?_⟩
  · exact congrArg Host.Outcome.next (tickStep_drained h)
  · exact congrArg Host.Outcome.next (tickStep_within h hcur)
  · refine (congrArg Host.Outcome.next (tickStep_exhausted h hcur)).trans ?_
    cases ha : s.active <;> simp [emit, switchBuffers, sampleAddress, activeBase, memRead, ha]

/-! ### The timer and the pulse-width output (R243 to R245) -/

theorem timerMove_stopped {s : State} (h : s.ten = false) : timerMove s = .next s := by
  simp [timerMove, timerExpires, countTimer, h]

theorem ofNat_succ (n k : Nat) : BitVec.ofNat n (k + 1) = 1 + BitVec.ofNat n k := by
  rw [Nat.add_comm, BitVec.ofNat_add]; rfl

/-- A timer below its divisor counts, clock by clock. -/
theorem runMoves_tclk (k : Nat) {s : State} (hten : s.ten = true) (h : s.tcnt.toNat + k ≤ s.tdiv.toNat) :
    runMoves (List.replicate k .tclk) s = .next { s with tcnt := s.tcnt + BitVec.ofNat 16 k } := by
  induction k generalizing s with
  | zero => simp
  | succ k ih =>
    have hdiv := s.tdiv.isLt
    have hstep : moveStep .tclk s = .next { s with tcnt := s.tcnt + 1 } := timerMove_counting hten (by omega)
    have hcnt : (s.tcnt + 1).toNat = s.tcnt.toNat + 1 := by
      rw [BitVec.toNat_add]; exact Nat.mod_eq_of_lt (by simp; omega)
    rw [List.replicate_succ, runMoves_cons _ _ hstep, ih (s := { s with tcnt := s.tcnt + 1 }) hten (by simp only [hcnt]; omega)]
    simp only [BitVec.add_assoc, ofNat_succ]

/-- Settles O31. -/
theorem timerPeriodIsTdivPlusOne : Obligations.TimerPeriodIsTdivPlusOne := by
  refine ⟨fun s k hten h0 hk => ?_, fun s => timerMove_expiring, fun s => timerMove_stopped⟩
  rw [runMoves_tclk k hten (by simpa [h0] using hk)]
  simp [h0]

theorem pwmClock_running {s : State} (h : s.pen = true) : pwmClock s = { s with pcnt := s.pcnt + 1 } := if_pos h

theorem runMoves_pclk (k : Nat) {s : State} (h : s.pen = true) :
    runMoves (List.replicate k .pclk) s = .next { s with pcnt := s.pcnt + BitVec.ofNat 8 k } := by
  induction k generalizing s with
  | zero => simp
  | succ k ih =>
    have hstep : moveStep .pclk s = .next { s with pcnt := s.pcnt + 1 } := congrArg Host.Outcome.next (pwmClock_running h)
    rw [List.replicate_succ, runMoves_cons _ _ hstep, ih (s := { s with pcnt := s.pcnt + 1 }) h]
    simp only [BitVec.add_assoc, ofNat_succ]

/-- In any 256 consecutive counts of a byte counter, `d` are below `d`. -/
theorem count_below_of_256 (p d : Nat) (hd : d ≤ 256) : Nat.count (fun k => (p + k) % 256 < d) 256 = d := by
  have hfirst : Nat.count (fun k => k % 256 < d) 256 = d := by
    have hset : (Finset.range 256).filter (fun k => k % 256 < d) = Finset.range d := by
      ext k; simp only [Finset.mem_filter, Finset.mem_range]; omega
    rw [Nat.count_eq_card_filter_range, hset, Finset.card_range]
  have hsplit := Nat.count_add (fun k => k % 256 < d) p 256
  have hperiod := Nat.count_add (fun k => k % 256 < d) 256 p
  simp only [Nat.add_mod_left] at hperiod
  rw [Nat.add_comm 256 p] at hperiod
  omega

/-- Settles O32. -/
theorem pulseWidthIsDutyOf256 : Obligations.PulseWidthIsDutyOf256 := by
  refine ⟨fun s k => runMoves_pclk k, fun s h => ?_, fun s h => ⟨?_, ?_⟩⟩
  · have hduty := s.duty.isLt
    refine Eq.trans ?_ (count_below_of_256 s.pcnt.toNat s.duty.toNat (by omega))
    rw [← List.countP_eq_length_filter]
    simp [Nat.count, pwmPin, h]
  · simp [pwmPin, h]
  · exact congrArg Host.Outcome.next (if_neg (by simp [h]))

end Sys2Proof.Machine

/-! PROOFS. What each kind of instruction can do: an inversion for host accesses, the frames of engine steps and of the
tick, and the writers of block memory (R62, R73), the FIFO (R47, R49), `IRQ` (R246), the descriptor (R29, R136) and `WOPEN`
(R222). -/

namespace Sys2Proof.Machine

open Sys2Proof.Laws.EncodesInFormat (rowFormat)

/-! ### An access is the encoding of the row it decodes to -/

theorem encode_decodeRegister {k : Nat} (hk : k < 16) (acc : Access) :
    encode (decodeRegister k acc) = accessAt (4 * k) acc := by
  cases acc with
  | read w => interval_cases k <;> rfl
  | write w v =>
    obtain rfl | hk9 := eq_or_ne k 9
    · change encode (if underrunOnly v then _ else _) = _
      split <;> rfl
    · interval_cases k
      pick_goal 10
      · exact absurd rfl hk9
      all_goals rfl

theorem toNat_ofNat_low {o n b : Nat} (h1 : b ≤ o) (h2 : o < b + 2 ^ n) (hb : b % 2 ^ n = 0) :
    b + (BitVec.ofNat n o).toNat = o := by
  obtain ⟨d, rfl⟩ := Nat.exists_eq_add_of_le h1
  rw [BitVec.toNat_ofNat, Nat.add_mod, hb, Nat.zero_add, Nat.mod_mod, Nat.mod_eq_of_lt (by omega)]

theorem encode_of_decodeAccess {r : HostReq} {i : Instr} (h : decodeAccess r = .ok i) :
    encode i = accessAt r.offset.toNat r.acc.trim := by
  have ho := r.offset.isLt
  unfold decodeAccess at h
  extract_lets o acc at h
  split at h
  · split at h
    · cases h
      rw [encode_decodeRegister (by omega), Nat.mul_div_cancel' (by omega)]
    · cases h
  · repeat' split at h
    all_goals
      cases h
      simp (disch := omega) only [encode, toNat_ofNat_low]
      rfl

/-- The row a host access decodes to names its offset and its cut access. -/
theorem accessAt_of_decode {r : HostReq} {i : Instr} {o : Nat} {acc : Access} (h : decode (.access r) = .ok i)
    (hi : encode i = accessAt o acc) : r.offset = BitVec.ofNat 17 o ∧ r.acc.trim = acc := by
  have he := (encode_of_decodeAccess h).symm.trans hi
  simp only [accessAt, Fetched.access.injEq, HostReq.mk.injEq, BitVec.ofNat_toNat, BitVec.setWidth_eq] at he
  exact he

/-- Only the 32-bit store of `v` at offset `o` decodes to the row of that store. -/
theorem eq_of_decode_store {r : HostReq} {i : Instr} {o : Nat} {v : Word} (h : decode (.access r) = .ok i)
    (hi : encode i = accessAt o (.write .w32 v)) : r = { offset := BitVec.ofNat 17 o, acc := .write .w32 v } := by
  obtain ⟨ho, hacc⟩ := accessAt_of_decode h hi
  rw [← ho, ← trim_eq_write_w32 hacc]

theorem exists_write_of_trim {acc : Access} {w : Width} {v : Word} (h : acc.trim = .write w v) :
    ∃ x, acc = .write w x := by
  cases acc with
  | read w => cases h
  | write w x => cases h; exact ⟨x, rfl⟩

/-- A store to the window decodes from a store at an offset of the window. -/
theorem window_store_of_decode {r : HostReq} {a : BAddr} {w : Width} {v : Word}
    (h : decode (.access r) = .ok (.bmem a (.write w v))) :
    ∃ (o : Offset) (x : Word), r = ⟨o, .write w x⟩ ∧ 0x10000 ≤ o.toNat := by
  obtain ⟨ho, hacc⟩ := accessAt_of_decode h rfl
  obtain ⟨x, hx⟩ := exists_write_of_trim hacc
  refine ⟨r.offset, x, by rw [← hx], ?_⟩
  rw [ho, toNat_ofNat_offset (by omega)]
  omega

theorem encode_format (i : Instr) : (encode i).format = rowFormat i := by
  cases i <;> rfl

theorem decode_access_format {r : HostReq} {i : Instr} (h : decode (.access r) = .ok i) : rowFormat i = .hostreg := by
  rw [← encode_format, encode_of_decodeAccess h]; rfl

/-! ### What a host access can do -/

/-- What an instruction of the host's leaves: an answer, or one of the stores and its completion. -/
inductive HostEffect (s : State) : Instr → State → Prop
  | answer (i : Instr) (r : HostResp) : HostEffect s i (respond r s)
  | cmd (v : Word) : HostEffect s (.wrCmd .w32 v) (respond .done (writeCmd v s))
  | arg0 (v : Word) : HostEffect s (.arg0 (.write .w32 v)) (respond .done (writeArg0 v s))
  | arg1 (v : Word) : HostEffect s (.arg1 (.write .w32 v)) (respond .done (writeArg1 v s))
  | addr (v : Word) : HostEffect s (.addr (.write .w32 v)) (respond .done (writeAddr v s))
  | status (v : Word) : HostEffect s (.wrStatus .w32 v) (respond .done (writeStatus v s))
  | actrl (v : Word) : HostEffect s (.wrActrl .w32 v) (respond .done (writeActrl v s))
  | astatSwap (v : Word) : HostEffect s (.wrAstatSwap .w32 v) (respond .done (writeAstat v s))
  | astatUnderrun (v : Word) : HostEffect s (.wrAstatUnderrun .w32 v) (respond .done (writeAstat v s))
  | arem (v : Word) : HostEffect s (.wrArem .w32 v) (respond .done (writeArem v s))
  | aremadd (v : Word) : HostEffect s (.aremadd (.write .w32 v)) (respond .done (addArem v s))
  | tdiv (v : Word) : HostEffect s (.wrTdiv .w32 v) (respond .done (writeTdiv v s))
  | duty (v : Word) : HostEffect s (.wrDuty .w32 v) (respond .done (writeDuty v s))
  | window (a : BAddr) (w : Width) (v : Word) : HostEffect s (.bmem a (.write w v)) (respond .done (windowWrite w a.toNat v s))

theorem hostEffect_regRead (i : Instr) (w : Width) (v : Word) (s : State) : HostEffect s i (regRead w v s) := by
  cases w <;> exact .answer i _

theorem hostEffect_regWrite {i : Instr} {w : Width} {f : State → State} {s : State}
    (h : w = .w32 → HostEffect s i (respond .done (f s))) : HostEffect s i (regWrite w f s) := by
  cases w
  case w32 => exact h rfl
  all_goals exact .answer i _

theorem hostEffect_regAccess {i : Instr} {acc : Access} {v : Word} {f : Word → State → State} {s : State}
    (h : ∀ x, acc = .write .w32 x → HostEffect s i (respond .done (f x s))) : HostEffect s i (regAccess acc v f s) := by
  cases acc with
  | read w => exact hostEffect_regRead i w v s
  | write w x => exact hostEffect_regWrite fun hw => h x (hw ▸ rfl)

theorem hostEffect_readOnly (i : Instr) (acc : Access) (v : Word) (s : State) :
    HostEffect s i (regAccess acc v ignoreWrite s) :=
  hostEffect_regAccess fun _ _ => .answer i _

theorem hostEffect_reservedOffset (i : Instr) (low : Nat) (acc : Access) (s : State) :
    HostEffect s i (reservedOffset low acc s) := by
  unfold reservedOffset
  split
  · exact hostEffect_readOnly i acc 0 s
  · exact .answer i _

theorem hostEffect_window (a : BAddr) (acc : Access) (s : State) : HostEffect s (.bmem a acc) (windowAccess a.toNat acc s) := by
  cases acc with
  | read w => rw [windowAccess]; split <;> exact .answer _ _
  | write w v =>
    rw [windowAccess]
    split
    · exact .window a w v
    · exact .answer _ _

theorem exec_hostEffect {i : Instr} {s t : State} (hf : rowFormat i = .hostreg) (h : exec i s = .next t) :
    HostEffect s i t := by
  cases i
  case rdCmd | rdStatus | rdActrl | rdAstat | rdArem | rdTdiv | rdDuty =>
    cases h; exact hostEffect_regRead _ _ _ s
  case wrCmd w v => cases h; exact hostEffect_regWrite fun hw => hw ▸ .cmd v
  case wrStatus w v => cases h; exact hostEffect_regWrite fun hw => hw ▸ .status v
  case wrActrl w v => cases h; exact hostEffect_regWrite fun hw => hw ▸ .actrl v
  case wrAstatSwap w v => cases h; exact hostEffect_regWrite fun hw => hw ▸ .astatSwap v
  case wrAstatUnderrun w v => cases h; exact hostEffect_regWrite fun hw => hw ▸ .astatUnderrun v
  case wrArem w v => cases h; exact hostEffect_regWrite fun hw => hw ▸ .arem v
  case wrTdiv w v => cases h; exact hostEffect_regWrite fun hw => hw ▸ .tdiv v
  case wrDuty w v => cases h; exact hostEffect_regWrite fun hw => hw ▸ .duty v
  case arg0 acc => cases h; exact hostEffect_regAccess fun x hx => hx ▸ .arg0 x
  case arg1 acc => cases h; exact hostEffect_regAccess fun x hx => hx ▸ .arg1 x
  case addr acc => cases h; exact hostEffect_regAccess fun x hx => hx ▸ .addr x
  case aremadd acc => cases h; exact hostEffect_regAccess fun x hx => hx ▸ .aremadd x
  case wcur | lastr1 | ocr | acur | param => cases h; exact hostEffect_readOnly _ _ _ s
  case reserved407C | reserved80FC => cases h; exact hostEffect_reservedOffset _ _ _ s
  case unmapped100 | unmapped200 | unmapped400 | unmapped800 | unmapped1000 | unmapped2000 | unmapped4000
      | unmapped8000 =>
    cases h; exact .answer _ _
  case bmem a acc => cases h; exact hostEffect_window a acc s
  all_goals cases hf

/-! ### What an engine step can do -/

/-- What an instruction of the engine's leaves: one step of its operation, or of `send_command`. -/
inductive EngineEffect (s : State) : Instr → State → Prop
  | init : EngineEffect s .init (initStep s)
  | read (sector : Word) (offset count : BitVec 10) (dest : BAddr) :
      EngineEffect s (.read sector offset count dest) (readStep sector offset count (some dest) s)
  | readSkip (sector : Word) (offset count : BitVec 10) :
      EngineEffect s (.readSkip sector offset count) (readStep sector offset count none s)
  | writeData (count : Word) (source : BAddr) : EngineEffect s (.writeData count source) (writeDataStep count source s)
  | writeOpen (sector : Word) : EngineEffect s (.writeOpen sector) (writeOpenStep sector s)
  | writeClose : EngineEffect s .writeClose (writeCloseStep s)
  | reserved (i : Instr) : EngineEffect s i (reservedStep s)
  | command (c : CardCmd) : EngineEffect s c.instr (cardCommandStep c s)

theorem exec_engineEffect {i : Instr} {s t : State} (hf : rowFormat i = .hostop ∨ rowFormat i = .frame48)
    (h : exec i s = .next t) : EngineEffect s i t := by
  cases i
  case init => cases h; exact .init
  case read a b c d => cases h; exact .read a b c d
  case readSkip a b c => cases h; exact .readSkip a b c
  case writeData a b => cases h; exact .writeData a b
  case writeOpen a => cases h; exact .writeOpen a
  case writeClose => cases h; exact .writeClose
  case reservedOp0 | reservedOp47 | reservedOp8F => cases h; exact .reserved _
  case cmd0 => cases h; exact .command .cmd0
  case cmd8 => cases h; exact .command .cmd8
  case cmd55 => cases h; exact .command .cmd55
  case acmd41 hcs => cases h; exact .command (.acmd41 hcs)
  case cmd1 => cases h; exact .command .cmd1
  case cmd58 => cases h; exact .command .cmd58
  case cmd16 => cases h; exact .command .cmd16
  case cmd17 a => cases h; exact .command (.cmd17 a)
  case cmd24 a => cases h; exact .command (.cmd24 a)
  all_goals obtain hf | hf := hf <;> cases hf

theorem exec_effect {i : Instr} {s t : State} (h : exec i s = .next t) :
    HostEffect s i t ∨ EngineEffect s i t ∨ (i = .tick ∧ t = tickStep s) := by
  cases hf : rowFormat i with
  | hostreg => exact .inl (exec_hostEffect hf h)
  | hostop => exact .inr (.inl (exec_engineEffect (.inl hf) h))
  | frame48 => exact .inr (.inl (exec_engineEffect (.inr hf) h))
  | event =>
    cases i
    case tick => cases h; exact .inr (.inr ⟨rfl, rfl⟩)
    all_goals cases hf

/-! ### What a move can do -/

theorem hostMove_effect {r : HostReq} {s t : State} (h : hostMove r s = .next t) :
    t = busError s ∨ ∃ i, decode (.access r) = .ok i ∧ HostEffect s i t := by
  unfold hostMove at h
  cases hd : decode (.access r) with
  | error e => rw [hd] at h; cases h; exact .inl rfl
  | ok i => rw [hd] at h; exact .inr ⟨i, rfl, exec_hostEffect (decode_access_format hd) h⟩

theorem engineMove_effect {s t : State} (h : engineMove s = .next t) :
    t = s ∨ ∃ i, engineInstr s = some i ∧ EngineEffect s i t := by
  unfold engineMove at h
  cases hi : engineInstr s with
  | none => rw [hi] at h; cases h; exact .inl rfl
  | some i => rw [hi] at h; exact .inr ⟨i, rfl, exec_engineEffect (engineInstr_format hi) h⟩

theorem timerMove_effect {s t : State} (h : timerMove s = .next t) :
    (s.ten = true ∧ s.tdiv.toNat ≤ s.tcnt.toNat ∧ t = tickStep { s with tcnt := 0 }) ∨ t = countTimer s := by
  by_cases he : s.ten = true ∧ s.tdiv.toNat ≤ s.tcnt.toNat
  · obtain ⟨hten, hexp⟩ := he
    rw [timerMove_expiring hten hexp] at h
    cases h; exact .inl ⟨hten, hexp, rfl⟩
  · have hno : ¬ timerExpires s = true := by simpa [timerExpires] using he
    rw [timerMove, if_neg hno] at h
    cases h; exact .inr rfl

/-! ### The state's parts by owner -/

/-- The audio FIFO's registers and counters. -/
structure AudioPart where
  ten : Bool
  pen : Bool
  ien : Bool
  active : Bool
  swap : Bool
  underrun : Bool
  acur : BitVec 16
  arem : Word
  tdiv : BitVec 16
  duty : Byte
  tcnt : BitVec 16
  pcnt : Byte

def audioPart (s : State) : AudioPart :=
  ⟨s.ten, s.pen, s.ien, s.active, s.swap, s.underrun, s.acur, s.arem, s.tdiv, s.duty, s.tcnt, s.pcnt⟩

/-- The card descriptor, the transport and what only the engine writes beside them. -/
structure CardPart where
  result : Result
  family : Family
  block : Bool
  wopen : Bool
  fast : Bool
  csa : Bool
  wcur : BitVec 10
  lastR1 : Byte
  ocr : Word
  dout : Bool
  trace : List BusEvent
  cardIn : List Byte

def cardPart (s : State) : CardPart :=
  ⟨s.result, s.family, s.block, s.wopen, s.fast, s.csa, s.wcur, s.lastR1, s.ocr, s.dout, s.trace, s.cardIn⟩

/-- An engine step writes none of the audio FIFO. -/
theorem EngineEffect.audioPart_eq {i : Instr} {s t : State} (h : EngineEffect s i t) : audioPart t = audioPart s := by
  cases h with
  | init => rw [initStep_frame]; rfl
  | read | readSkip => rw [readStep_frame]; rfl
  | writeData => rw [writeDataStep_frame]; rfl
  | writeOpen => rw [writeOpenStep_frame]; rfl
  | writeClose => rw [writeCloseStep_frame]; rfl
  | reserved => rw [reservedStep_frame]; rfl
  | command => rw [cardCommandStep_frame]; rfl

theorem windowWrite_frame (w : Width) (a : Nat) (v : Word) (s : State) :
    windowWrite w a v s = { s with mem := (windowWrite w a v s).mem } := by
  unfold windowWrite
  cases w
  case w8 => exact memWrite_frame _ _ _
  all_goals exact memWriteWord_frame _ _ _

/-- A host access writes nothing of the engine's. -/
theorem HostEffect.cardPart_eq {i : Instr} {s t : State} (h : HostEffect s i t) : cardPart t = cardPart s := by
  cases h with
  | cmd v => rw [writeCmd_frame]; rfl
  | actrl v => rw [writeActrl_frame]; rfl
  | window a w v => rw [windowWrite_frame]; rfl
  | _ => rfl

theorem tickStep_cardPart (s : State) : cardPart (tickStep s) = cardPart s := by
  rw [tickStep_frame]; rfl

theorem countTimer_cases (s : State) : ∃ n, countTimer s = { s with tcnt := n } := by
  unfold countTimer
  split <;> exact ⟨_, rfl⟩

theorem pwmClock_cases (s : State) : ∃ n, pwmClock s = { s with pcnt := n } := by
  unfold pwmClock
  split <;> exact ⟨_, rfl⟩

end Sys2Proof.Machine

/-! PROOFS. The writers of block memory (R62, R73), of `IRQ` (R246, R310), of the FIFO (R47, R49), of the descriptor and the
clock mode (R29, R136), and of `WOPEN` (R222). -/

namespace Sys2Proof.Machine

open Sys2Proof.Laws.EncodesInFormat (rowFormat)

/-! ### Block memory -/

theorem HostEffect.mem_eq {i : Instr} {s t : State} (h : HostEffect s i t) (hi : ∀ a w v, i ≠ .bmem a (.write w v)) :
    t.mem = s.mem ∧ t.epoch = s.epoch := by
  cases h with
  | cmd v => rw [writeCmd_frame]; exact ⟨rfl, rfl⟩
  | actrl v => rw [writeActrl_frame]; exact ⟨rfl, rfl⟩
  | window a w v => exact absurd rfl (hi a w v)
  | _ => exact ⟨rfl, rfl⟩

theorem EngineEffect.mem_eq {i : Instr} {s t : State} (h : EngineEffect s i t)
    (hi : ∀ sector offset count dest, i ≠ .read sector offset count dest) : t.mem = s.mem ∧ t.epoch = s.epoch := by
  cases h with
  | init => rw [initStep_frame]; exact ⟨rfl, rfl⟩
  | read a b c d => exact absurd rfl (hi a b c d)
  | readSkip => exact ⟨readStep_none_mem _ _ _ _, by rw [readStep_frame]⟩
  | writeData => rw [writeDataStep_frame]; exact ⟨rfl, rfl⟩
  | writeOpen => rw [writeOpenStep_frame]; exact ⟨rfl, rfl⟩
  | writeClose => rw [writeCloseStep_frame]; exact ⟨rfl, rfl⟩
  | reserved => rw [reservedStep_frame]; exact ⟨rfl, rfl⟩
  | command => rw [cardCommandStep_frame]; exact ⟨rfl, rfl⟩

theorem memRead_tickStep (s : State) (x : Nat) : memRead (tickStep s) x = memRead s x := by
  rw [tickStep_frame]; rfl

/-- Settles O22. -/
theorem onlyWindowStoresAndReadsChangeBlockMemory : Obligations.OnlyWindowStoresAndReadsChangeBlockMemory := by
  refine ⟨fun i s t h hb hr x => ?_, fun m s t h => ?_⟩
  · obtain he | he | ⟨-, rfl⟩ := exec_effect h
    · exact memRead_congr (he.mem_eq hb).1 (he.mem_eq hb).2 x
    · exact memRead_congr (he.mem_eq hr).1 (he.mem_eq hr).2 x
    · exact memRead_tickStep s x
  · cases m with
    | host r =>
      obtain rfl | ⟨i, hd, he⟩ := hostMove_effect h
      · exact .inl fun x => rfl
      by_cases hb : ∃ a w v, i = .bmem a (.write w v)
      · obtain ⟨a, w, v, rfl⟩ := hb
        obtain ⟨o, x, rfl, ho⟩ := window_store_of_decode hd
        exact .inr (.inr (.inl ⟨o, w, x, rfl, ho⟩))
      · push Not at hb
        exact .inl fun x => memRead_congr (he.mem_eq hb).1 (he.mem_eq hb).2 x
    | engine =>
      obtain rfl | ⟨i, hi, he⟩ := engineMove_effect h
      · exact .inl fun x => rfl
      by_cases hr : ∃ a b c d, i = .read a b c d
      · obtain ⟨a, b, c, d, rfl⟩ := hr
        exact .inr (.inr (.inr ⟨rfl, a, b, c, d, hi⟩))
      · push Not at hr
        exact .inl fun x => memRead_congr (he.mem_eq hr).1 (he.mem_eq hr).2 x
    | tclk =>
      obtain ⟨-, -, rfl⟩ | rfl := timerMove_effect h
      · exact .inl fun x => memRead_tickStep _ x
      · obtain ⟨n, hn⟩ := countTimer_cases s
        exact .inl fun x => by rw [hn]; rfl
    | pclk =>
      cases h
      obtain ⟨n, hn⟩ := pwmClock_cases s
      exact .inl fun x => by rw [hn]; rfl
    | reset => exact .inr (.inl rfl)

/-! ### `IRQ` -/

theorem irq_iff (s : State) : irq s = true ↔ s.swap = true ∧ s.ien = true := Bool.and_eq_true_iff

theorem irq_of_audioPart_eq {s t : State} (h : audioPart t = audioPart s) : irq t = irq s := by
  have hswap : t.swap = s.swap := congrArg AudioPart.swap h
  have hien : t.ien = s.ien := congrArg AudioPart.ien h
  rw [irq, irq, hswap, hien]

theorem irq_writeActrl (v : Word) (s : State) : irq (writeActrl v s) = (s.swap && !v.getLsbD 3 && v.getLsbD 2) := by
  unfold writeActrl irq
  cases v.getLsbD 3 <;> simp [indexReset]

/-- Of the host's instructions, only a store to `ACTRL` can raise `IRQ`. -/
theorem HostEffect.irq_rises {i : Instr} {s t : State} (h : HostEffect s i t) (hs : irq s = false) (ht : irq t = true) :
    ∃ v, i = .wrActrl .w32 v := by
  cases h with
  | actrl v => exact ⟨v, rfl⟩
  | cmd v => rw [writeCmd_frame] at ht; exact absurd (hs.symm.trans ht) (by decide)
  | window a w v => rw [windowWrite_frame] at ht; exact absurd (hs.symm.trans ht) (by decide)
  | astatSwap v | astatUnderrun v =>
    obtain ⟨hswap, hien⟩ := (irq_iff _).mp ht
    have hirq : irq s = true := (irq_iff s).mpr ⟨(Bool.and_eq_true_iff.mp hswap).1, hien⟩
    exact absurd (hs.symm.trans hirq) (by decide)
  | _ => exact absurd (hs.symm.trans ht) (by decide)

/-- Settles O33. -/
theorem irqRisesAndFalls : Obligations.IrqRisesAndFalls := by
  refine ⟨fun s t h => ?_, fun s t v h => ?_, fun i s t h hs ht => ?_, fun m s t h hs ht => ?_⟩
  · have hd : decode (.access ackSwap) = .ok (.wrAstatSwap .w32 2) := by decide
    rw [hostMove_decoded hd] at h
    cases h
    simp [regWrite, writeAstat, irq]
  · cases h
    exact irq_writeActrl v s
  · obtain he | he | ⟨hi, -⟩ := exec_effect h
    · exact .inr (he.irq_rises hs ht)
    · exact absurd ((irq_of_audioPart_eq he.audioPart_eq).symm.trans ht) (by simp [hs])
    · exact .inl hi
  · cases m with
    | host r =>
      obtain rfl | ⟨i, hd, he⟩ := hostMove_effect h
      · exact absurd (hs.symm.trans ht) (by decide)
      · obtain ⟨v, rfl⟩ := he.irq_rises hs ht
        exact .inr ⟨v, congrArg Move.host (eq_of_decode_store hd rfl)⟩
    | engine =>
      obtain rfl | ⟨i, -, he⟩ := engineMove_effect h
      · exact absurd (hs.symm.trans ht) (by decide)
      · exact absurd ((irq_of_audioPart_eq he.audioPart_eq).symm.trans ht) (by simp [hs])
    | tclk =>
      obtain ⟨hten, hexp, -⟩ | rfl := timerMove_effect h
      · exact .inl ⟨rfl, hten, hexp⟩
      · obtain ⟨n, hn⟩ := countTimer_cases s
        rw [hn] at ht
        exact absurd (hs.symm.trans ht) (by decide)
    | pclk =>
      cases h
      obtain ⟨n, hn⟩ := pwmClock_cases s
      rw [hn] at ht
      exact absurd (hs.symm.trans ht) (by decide)
    | reset => cases h; cases ht

/-! ### The FIFO -/

/-- What no agent but the tick does to the FIFO: `SWAP` and `UNDERRUN` do not rise, and `ACTIVE` and `ACUR` stay or are
reset, the reset only where `reset` holds. -/
structure FifoHeld (reset : Prop) (s t : State) : Prop where
  swap : t.swap = true → s.swap = true
  underrun : t.underrun = true → s.underrun = true
  indices : (t.active = s.active ∧ t.acur = s.acur) ∨ (t.active = false ∧ t.acur = 0 ∧ reset)

theorem FifoHeld.of_audioPart_eq {reset : Prop} {s t : State} (h : audioPart t = audioPart s) : FifoHeld reset s t where
  swap := fun ht => (congrArg AudioPart.swap h).symm.trans ht
  underrun := fun ht => (congrArg AudioPart.underrun h).symm.trans ht
  indices := .inl ⟨congrArg AudioPart.active h, congrArg AudioPart.acur h⟩

theorem writeAstat_fifoHeld (reset : Prop) (v : Word) (s : State) : FifoHeld reset s (writeAstat v s) where
  swap := fun ht => (Bool.and_eq_true_iff.mp ht).1
  underrun := fun ht => (Bool.and_eq_true_iff.mp ht).1
  indices := .inl ⟨rfl, rfl⟩

theorem writeActrl_fifoHeld (v : Word) (s : State) : FifoHeld (v.getLsbD 3 = true) s (writeActrl v s) := by
  unfold writeActrl
  cases hv : v.getLsbD 3
  · exact ⟨id, id, .inl ⟨rfl, rfl⟩⟩
  · exact ⟨nofun, nofun, .inr ⟨rfl, rfl, rfl⟩⟩

theorem FifoHeld.mono {p q : Prop} {s t : State} (h : FifoHeld p s t) (hpq : p → q) : FifoHeld q s t :=
  ⟨h.swap, h.underrun, h.indices.imp_right fun ⟨ha, hc, hp⟩ => ⟨ha, hc, hpq hp⟩⟩

theorem FifoHeld.respond {p : Prop} {s t : State} (h : FifoHeld p s t) (r : HostResp) : FifoHeld p s (respond r t) :=
  ⟨h.swap, h.underrun, h.indices⟩

theorem HostEffect.fifoHeld {i : Instr} {s t : State} (h : HostEffect s i t) :
    FifoHeld (∃ v, i = .wrActrl .w32 v ∧ v.getLsbD 3 = true) s t := by
  cases h with
  | actrl v => exact ((writeActrl_fifoHeld v s).mono fun hv => ⟨v, rfl, hv⟩).respond _
  | astatSwap v | astatUnderrun v => exact (writeAstat_fifoHeld _ v s).respond _
  | cmd v => rw [writeCmd_frame]; exact ⟨id, id, .inl ⟨rfl, rfl⟩⟩
  | window a w v => rw [windowWrite_frame]; exact ⟨id, id, .inl ⟨rfl, rfl⟩⟩
  | _ => exact ⟨id, id, .inl ⟨rfl, rfl⟩⟩

/-- Settles O34. -/
theorem onlyTheTickAdvancesTheFifo : Obligations.OnlyTheTickAdvancesTheFifo := by
  refine ⟨fun i s t h hi => ?_, fun m s t h => ?_⟩
  · obtain he | he | ⟨rfl, -⟩ := exec_effect h
    · exact ⟨he.fifoHeld.swap, he.fifoHeld.underrun, he.fifoHeld.indices⟩
    · have held := FifoHeld.of_audioPart_eq (reset := ∃ v, i = .wrActrl .w32 v ∧ v.getLsbD 3 = true) he.audioPart_eq
      exact ⟨held.swap, held.underrun, held.indices⟩
    · exact absurd rfl hi
  · by_cases hexp : m = .tclk ∧ s.ten = true ∧ s.tdiv.toNat ≤ s.tcnt.toNat
    · exact .inl hexp
    suffices held : FifoHeld (m = .reset ∨ ∃ v : Word, m = .host { offset := 0x20, acc := .write .w32 v } ∧
        v.getLsbD 3 = true) s t from .inr ⟨held.swap, held.underrun, held.indices⟩
    cases m with
    | host r =>
      obtain rfl | ⟨i, hd, he⟩ := hostMove_effect h
      · exact ⟨id, id, .inl ⟨rfl, rfl⟩⟩
      · refine he.fifoHeld.mono ?_
        rintro ⟨v, rfl, hv⟩
        exact .inr ⟨v, congrArg Move.host (eq_of_decode_store hd rfl), hv⟩
    | engine =>
      obtain rfl | ⟨i, -, he⟩ := engineMove_effect h
      · exact ⟨id, id, .inl ⟨rfl, rfl⟩⟩
      · exact .of_audioPart_eq he.audioPart_eq
    | tclk =>
      obtain ⟨hten, hle, -⟩ | rfl := timerMove_effect h
      · exact absurd ⟨rfl, hten, hle⟩ hexp
      · obtain ⟨n, hn⟩ := countTimer_cases s
        rw [hn]; exact ⟨id, id, .inl ⟨rfl, rfl⟩⟩
    | pclk =>
      cases h
      obtain ⟨n, hn⟩ := pwmClock_cases s
      rw [hn]; exact ⟨id, id, .inl ⟨rfl, rfl⟩⟩
    | reset => cases h; exact ⟨nofun, nofun, .inr ⟨rfl, rfl, .inl rfl⟩⟩

/-! ### The descriptor, the clock mode and `WOPEN` -/

/-- An engine step of another operation than INIT leaves the descriptor and the clock mode. -/
theorem EngineEffect.descriptor_eq {i : Instr} {s t : State} (h : EngineEffect s i t) (hi : i ≠ .init) :
    t.family = s.family ∧ t.block = s.block ∧ t.fast = s.fast := by
  cases h with
  | init => exact absurd rfl hi
  | read | readSkip => rw [readStep_frame]; exact ⟨rfl, rfl, rfl⟩
  | writeData => rw [writeDataStep_frame]; exact ⟨rfl, rfl, rfl⟩
  | writeOpen => rw [writeOpenStep_frame]; exact ⟨rfl, rfl, rfl⟩
  | writeClose => rw [writeCloseStep_frame]; exact ⟨rfl, rfl, rfl⟩
  | reserved => rw [reservedStep_frame]; exact ⟨rfl, rfl, rfl⟩
  | command => rw [cardCommandStep_frame]; exact ⟨rfl, rfl, rfl⟩

theorem descriptor_of_cardPart_eq {s t : State} (h : cardPart t = cardPart s) :
    t.family = s.family ∧ t.block = s.block ∧ t.fast = s.fast :=
  ⟨congrArg CardPart.family h, congrArg CardPart.block h, congrArg CardPart.fast h⟩

/-- A move of an agent other than the engine, and other than the reset input, writes nothing of the engine's. -/
theorem moveStep_cardPart_eq {m : Move} {s t : State} (h : moveStep m s = .next t) (he : m ≠ .engine) (hr : m ≠ .reset) :
    cardPart t = cardPart s := by
  cases m with
  | host r =>
    obtain rfl | ⟨i, -, he⟩ := hostMove_effect h
    · rfl
    · exact he.cardPart_eq
  | engine => exact absurd rfl he
  | tclk =>
    obtain ⟨-, -, rfl⟩ | rfl := timerMove_effect h
    · exact tickStep_cardPart _
    · obtain ⟨n, hn⟩ := countTimer_cases s
      rw [hn]; rfl
  | pclk =>
    cases h
    obtain ⟨n, hn⟩ := pwmClock_cases s
    rw [hn]; rfl
  | reset => exact absurd rfl hr

/-- Settles O41. -/
theorem onlyInitChangesTheDescriptorAndTheClockMode : Obligations.OnlyInitChangesTheDescriptorAndTheClockMode := by
  refine ⟨fun i s t h hi => ?_, fun m s t h => ?_⟩
  · obtain he | he | ⟨-, rfl⟩ := exec_effect h
    · exact descriptor_of_cardPart_eq he.cardPart_eq
    · exact he.descriptor_eq hi
    · exact descriptor_of_cardPart_eq (tickStep_cardPart s)
  · by_cases hr : m = .reset
    · exact .inr (.inl hr)
    by_cases hm : m = .engine
    · subst hm
      obtain rfl | ⟨i, hi, he⟩ := engineMove_effect h
      · exact .inl ⟨rfl, rfl, rfl⟩
      by_cases hinit : i = .init
      · exact .inr (.inr ⟨rfl, hinit ▸ hi⟩)
      · exact .inl (he.descriptor_eq hinit)
    · exact .inl (descriptor_of_cardPart_eq (moveStep_cardPart_eq h hm hr))

theorem initStep_wopen (s : State) : (initStep s).wopen = s.wopen ∨ (initStep s).wopen = false := by
  unfold initStep
  split
  case h_1 =>
    unfold initStart
    split
    · split <;> exact .inl rfl
    · exact .inl rfl
  case h_6 => exact .inr rfl
  case h_10 => unfold rd4Step; simp only; split <;> exact .inl rfl
  all_goals exact .inl rfl

theorem writeOpenStep_wopen (sector : Word) (s : State) :
    (writeOpenStep sector s).wopen = s.wopen ∨ (writeOpenStep sector s).wopen = true := by
  unfold writeOpenStep
  split
  case h_1 | h_2 => rw [refuseIf_frame]; exact .inl rfl
  case h_4 => exact .inr rfl
  all_goals exact .inl rfl

theorem writeCloseStep_wopen (s : State) : (writeCloseStep s).wopen = s.wopen ∨ (writeCloseStep s).wopen = false := by
  unfold writeCloseStep
  split
  case h_1 => rw [refuseIf_frame]; exact .inl rfl
  case h_6 => exact .inr rfl
  all_goals exact .inl rfl

/-- What each engine step does to `WOPEN`. -/
theorem EngineEffect.wopen_cases {i : Instr} {s t : State} (h : EngineEffect s i t) :
    t.wopen = s.wopen ∨ (t.wopen = true ∧ ∃ sector, i = .writeOpen sector)
      ∨ (t.wopen = false ∧ (i = .writeClose ∨ i = .init)) := by
  cases h with
  | init => exact (initStep_wopen s).imp_right fun h => .inr ⟨h, .inr rfl⟩
  | writeOpen sector => exact (writeOpenStep_wopen sector s).imp_right fun h => .inl ⟨h, sector, rfl⟩
  | writeClose => exact (writeCloseStep_wopen s).imp_right fun h => .inr ⟨h, .inl rfl⟩
  | read | readSkip => rw [readStep_frame]; exact .inl rfl
  | writeData => rw [writeDataStep_frame]; exact .inl rfl
  | reserved => rw [reservedStep_frame]; exact .inl rfl
  | command => rw [cardCommandStep_frame]; exact .inl rfl

theorem exec_wopen_cases {i : Instr} {s t : State} (h : exec i s = .next t) :
    t.wopen = s.wopen ∨ (t.wopen = true ∧ ∃ sector, i = .writeOpen sector)
      ∨ (t.wopen = false ∧ (i = .writeClose ∨ i = .init)) := by
  obtain he | he | ⟨-, rfl⟩ := exec_effect h
  · exact .inl (congrArg CardPart.wopen he.cardPart_eq)
  · exact he.wopen_cases
  · exact .inl (congrArg CardPart.wopen (tickStep_cardPart s))

theorem moveStep_wopen_cases {m : Move} {s t : State} (h : moveStep m s = .next t) :
    t.wopen = s.wopen ∨ (t.wopen = true ∧ m = .engine ∧ ∃ sector, engineInstr s = some (.writeOpen sector))
      ∨ (t.wopen = false ∧ (m = .reset
        ∨ (m = .engine ∧ (engineInstr s = some .writeClose ∨ engineInstr s = some .init)))) := by
  by_cases hr : m = .reset
  · subst hr; cases h; exact .inr (.inr ⟨rfl, .inl rfl⟩)
  by_cases hm : m = .engine
  · subst hm
    obtain rfl | ⟨i, hi, he⟩ := engineMove_effect h
    · exact .inl rfl
    obtain hw | ⟨hw, sector, rfl⟩ | ⟨hw, hi'⟩ := he.wopen_cases
    · exact .inl hw
    · exact .inr (.inl ⟨hw, rfl, sector, hi⟩)
    · exact .inr (.inr ⟨hw, .inr ⟨rfl, by obtain rfl | rfl := hi' <;> simp [hi]⟩⟩)
  · exact .inl (congrArg CardPart.wopen (moveStep_cardPart_eq h hm hr))

/-- Settles O58. -/
theorem wopenWriters : Obligations.WopenWriters := by
  refine ⟨fun i s t h => ⟨fun hs ht => ?_, fun hs ht => ?_⟩, fun m s t h => ⟨fun hs ht => ?_, fun hs ht => ?_⟩⟩
  · obtain hw | ⟨-, hi⟩ | ⟨hw, -⟩ := exec_wopen_cases h
    · exact absurd (ht.symm.trans (hw.trans hs)) (by decide)
    · exact hi
    · exact absurd (ht.symm.trans hw) (by decide)
  · obtain hw | ⟨hw, -⟩ | ⟨-, hi⟩ := exec_wopen_cases h
    · exact absurd (ht.symm.trans (hw.trans hs)) (by decide)
    · exact absurd (ht.symm.trans hw) (by decide)
    · exact hi
  · obtain hw | ⟨-, hi⟩ | ⟨hw, -⟩ := moveStep_wopen_cases h
    · exact absurd (ht.symm.trans (hw.trans hs)) (by decide)
    · exact hi
    · exact absurd (ht.symm.trans hw) (by decide)
  · obtain hw | ⟨hw, -⟩ | ⟨-, hi⟩ := moveStep_wopen_cases h
    · exact absurd (ht.symm.trans (hw.trans hs)) (by decide)
    · exact absurd (ht.symm.trans hw) (by decide)
    · exact hi

end Sys2Proof.Machine

/-! PROOFS. The invariant of the block's state (R45, R46, R47): every step keeps it. -/

namespace Sys2Proof.Machine

/-! ### Positions a command or a response leads to -/

theorem callCommand_ok {k : Caller} {s : State} (c : CardCmd) (hw : noWrite s = true) (hk : callerOk k s = true) :
    engineOk (goto (callCommand k c) s) = true := by
  have hcmd (ret : Ret) (c' : CardCmd) (hret : retOk ret s = true) : engineOk (goto (.cmd ret c' .desel) s) = true := by
    change (noWrite s && true && retOk ret s) = true
    rw [hw, hret]; rfl
  cases c <;> exact hcmd _ _ hk

theorem retryNext_ok {s : State} {left : Nat} {again : Nat → EnginePos} {timeout : EnginePos}
    (ha : ∀ n, engineOk (goto (again n) s) = true) (ht : engineOk (goto timeout s) = true) :
    engineOk (goto (retryNext left again timeout) s) = true := by
  cases left with
  | zero => exact ht
  | succ n => exact ha n

theorem initEnd_ok {s : State} (fam : Family) (blk : Bool) (hw : noWrite s = true) (hr : ready s = false) :
    engineOk (goto (.initEnd fam blk) s) = true := by
  change (noWrite s && !ready s) = true
  rw [hw, hr]; rfl

theorem rd4_ok {s : State} (k : WordFor) {left : Nat} (acc : Word) (hw : noWrite s = true) (hr : ready s = false)
    (hc : s.csa = true) (hl : left < 4) : engineOk (goto (.rd4 k left acc) s) = true := by
  change (noWrite s && !ready s && s.csa && decide (left < 4)) = true
  simp [hw, hr, hc, hl]

/-- READ and WRITE open go on after their command, or give up, with the family established. -/
theorem ready_ok {s : State} (hw : noWrite s = true) (hr : ready s = true) (hc : s.csa = true) (left : Nat) (r : Result) :
    engineOk (goto (.token left) s) = true ∧ engineOk (goto .gap s) = true ∧ engineOk (goto (.desel r) s) = true := by
  refine ⟨?_, ?_, ?_⟩
  · change (noWrite s && ready s && s.csa) = true
    simp [hw, hr, hc]
  · change (noWrite s && ready s && s.csa) = true
    simp [hw, hr, hc]
  · change (noWrite s && ready s) = true
    simp [hw, hr]

/-- Where an INIT command's response leads keeps the invariant. -/
theorem resume_ok_init {k : Caller} {s : State} (p : Params) (r : Byte) (hw : noWrite s = true) (hc : s.csa = true)
    (hr : ready s = false) (hread : k ≠ .read) (hopen : k ≠ .writeOpen) :
    engineOk (goto (resume p k r) s) = true := by
  have hcall (k' : Caller) (c : CardCmd) (hk' : callerOk k' s = !ready s) : engineOk (goto (callCommand k' c) s) = true :=
    callCommand_ok c hw (by rw [hk', hr]; rfl)
  have hend (fam : Family) (blk : Bool) : engineOk (goto (.initEnd fam blk) s) = true := initEnd_ok _ _ hw hr
  cases k with
  | initIdle left =>
    simp only [resume, afterIdleReset]
    split
    · exact hcall _ _ rfl
    · exact retryNext_ok (fun n => hcall _ _ rfl) (hend _ _)
  | initVersion =>
    simp only [resume, afterVersion]
    split
    · exact rd4_ok _ _ hw hr hc (by decide)
    · exact hcall _ _ rfl
  | initHcs left =>
    simp only [resume, afterHcs]
    split
    · exact hcall _ _ rfl
    · exact retryNext_ok (fun n => hcall _ _ rfl) (hend _ _)
  | initOcr =>
    simp only [resume, afterCapacity]
    split
    · exact rd4_ok _ _ hw hr hc (by decide)
    · exact hend _ _
  | initProbe => exact hcall _ _ rfl
  | initLoop cand left =>
    simp only [resume, afterLoop]
    split
    · exact hcall _ _ rfl
    · exact retryNext_ok (fun n => hcall _ _ rfl) (hend _ _)
  | initBlockLen fam =>
    simp only [resume, afterBlockLen]
    split <;> exact hend _ _
  | read => exact absurd rfl hread
  | writeOpen => exact absurd rfl hopen

/-- Where a response leads keeps the invariant: INIT stays in INIT with the descriptor cleared, READ and WRITE open keep the
family. -/
theorem resume_ok {k : Caller} {s : State} (p : Params) (r : Byte) (hw : noWrite s = true) (hc : s.csa = true)
    (hk : callerOk k s = true) : engineOk (goto (resume p k r) s) = true := by
  cases k with
  | read =>
    obtain ⟨htoken, -, hdesel⟩ := ready_ok hw hk hc (p.retryToken - 1) .error
    simp only [resume, afterReadCmd]
    split <;> assumption
  | writeOpen =>
    obtain ⟨-, hgap, hdesel⟩ := ready_ok hw hk hc 0 .error
    simp only [resume, afterOpenCmd]
    split <;> assumption
  | _ => exact resume_ok_init p r hw hc (by simpa [callerOk] using hk) nofun nofun

theorem returned_ok {ret : Ret} {s : State} (p : Params) (r : Byte) (hw : noWrite s = true) (hc : s.csa = true)
    (hret : retOk ret s = true) : engineOk (goto (returned p ret r) s) = true := by
  cases ret with
  | plain k => exact resume_ok p r hw hc hret
  | lead hcs k =>
    simp only [returned]
    split
    · exact resume_ok p r hw hc hret
    · change (noWrite s && true && callerOk k s) = true
      rw [hw, show callerOk k s = true from hret]; rfl

/-! ### What the engine's steps keep -/

/-- R45, R46 and the ranges of the write cursor and of the position's counters. -/
structure EngineInv (s : State) : Prop where
  block : s.block = true → s.family = .sdv2
  wcur : s.wcur.toNat ≤ sectorSize
  engine : engineOk s = true

theorem cmd_ok {ret : Ret} {ph : CmdPhase} {s : State} (c : CardCmd) (hw : noWrite s = true) (hph : phaseOk ph s = true)
    (hret : retOk ret s = true) : engineOk (goto (.cmd ret c ph) s) = true := by
  change (noWrite s && phaseOk ph s && retOk ret s) = true
  rw [hw, hph, hret]; rfl

theorem sendStep_keeps {ret : Ret} {c : CardCmd} {ph : CmdPhase} {s : State} (h : EngineInv s)
    (he : s.eng = .cmd ret c ph) : EngineInv (sendStep ret c ph s) := by
  obtain ⟨hblock, hwcur, hok⟩ := h
  simp only [engineOk, he, Bool.and_eq_true] at hok
  obtain ⟨⟨hw, hph⟩, hret⟩ := hok
  cases ph with
  | desel => exact ⟨hblock, hwcur, cmd_ok (s := deselect s) c hw rfl hret⟩
  | sel => exact ⟨hblock, hwcur, cmd_ok (s := select s) c hw rfl hret⟩
  | flush => exact ⟨hblock, hwcur, cmd_ok (s := rcv s) c hw (by simpa [phaseOk] using hph) hret⟩
  | byte k =>
    obtain ⟨hc, hk⟩ := Bool.and_eq_true_iff.mp hph
    refine ⟨hblock, hwcur, ?_⟩
    simp only [sendStep, frameByteStep]
    split
    · exact cmd_ok (s := xchg _ s) c hw (by simp [phaseOk, hc]; omega) hret
    · exact cmd_ok (s := xchg _ s) c hw (by simp [phaseOk, hc, pollR1]) hret
  | poll left =>
    obtain ⟨hc, hl⟩ := Bool.and_eq_true_iff.mp hph
    have hdone : EngineInv (goto (returned s.par ret (cardByte s)) { rcv s with lastR1 := cardByte s }) :=
      ⟨hblock, hwcur, returned_ok _ _ hw hc hret⟩
    simp only [sendStep, pollStep]
    split
    · exact hdone
    · cases left with
      | zero => exact hdone
      | succ n => exact ⟨hblock, hwcur, cmd_ok (s := rcv s) c hw (by simp [phaseOk, hc]; simp at hl; omega) hret⟩

theorem cardCommandStep_keeps {c : CardCmd} {s : State} (h : EngineInv s) : EngineInv (cardCommandStep c s) := by
  unfold cardCommandStep
  split
  · next ret c' ph he =>
    split
    · next hc => exact sendStep_keeps h (hc ▸ he)
    · exact h
  · exact h

/-- `finish` at a position where no operation holds the transport. -/
theorem finish_keeps {s : State} (r : Result) (h : EngineInv s) (hrest : restOk s = true) : EngineInv (finish r s) :=
  ⟨h.block, h.wcur, hrest⟩

theorem refuseIf_keeps {c : Bool} {r : Result} {p : EnginePos} {s : State} (h : EngineInv s) (hrest : restOk s = true)
    (hp : c = false → engineOk (goto p s) = true) : EngineInv (refuseIf c r p s) := by
  unfold refuseIf
  split
  · exact finish_keeps r h hrest
  · next hc => exact ⟨h.block, h.wcur, hp (by simpa using hc)⟩

/-! ### READ -/

theorem restOk_iff (s : State) : restOk s = true ↔
    (s.wopen = true ∧ ready s = true ∧ s.csa = true) ∨ (s.wopen = false ∧ s.wcur = 0 ∧ s.csa = false) := by
  unfold restOk ready
  cases s.wopen <;> simp

theorem noWrite_iff (s : State) : noWrite s = true ↔ s.wopen = false ∧ s.wcur = 0 := by
  simp [noWrite]

theorem restOk_of_noWrite {s : State} (hw : noWrite s = true) (hc : s.csa = false) : restOk s = true := by
  obtain ⟨ho, hcur⟩ := (noWrite_iff s).mp hw
  exact (restOk_iff s).mpr (.inr ⟨ho, hcur, hc⟩)

theorem noWrite_of_restOk {s : State} (hr : restOk s = true) (ho : s.wopen = false) : noWrite s = true := by
  obtain ⟨h, -⟩ | ⟨-, hcur, -⟩ := (restOk_iff s).mp hr
  · exact absurd (ho.symm.trans h) (by decide)
  · exact (noWrite_iff s).mpr ⟨ho, hcur⟩

theorem deselStep_keeps {r : Result} {s : State} (h : EngineInv s) (hw : noWrite s = true) : EngineInv (deselStep r s) :=
  ⟨h.block, h.wcur, restOk_of_noWrite (s := deselect s) hw rfl⟩

theorem packet_ok {s : State} {j : Nat} (hw : noWrite s = true) (hr : ready s = true) (hc : s.csa = true)
    (hj : j < sectorSize + crcBytes) : engineOk (goto (.packet j) s) = true := by
  change (noWrite s && ready s && s.csa && decide (j < sectorSize + crcBytes)) = true
  simp [hw, hr, hc, hj]

theorem storeAt_keeps (a : Option Nat) (v : Byte) (s : State) (p : EnginePos) (h : EngineInv (goto p s)) :
    EngineInv (goto p (storeAt a v s)) := by
  rw [storeAt_frame]
  exact ⟨h.block, h.wcur, h.engine⟩

theorem readStep_keeps {sector : Word} {offset count : BitVec 10} {dest : Option BAddr} {s : State} (h : EngineInv s) :
    EngineInv (readStep sector offset count dest s) := by
  have hok := h.engine
  unfold readStep
  split
  case h_1 he =>
    simp only [engineOk, he] at hok
    exact refuseIf_keeps h hok fun hr => by
      change (restOk s && ready s) = true
      simpa [hok] using hr
  case h_2 he =>
    simp only [engineOk, he, Bool.and_eq_true] at hok
    obtain ⟨hrest, hr⟩ := hok
    exact refuseIf_keeps h hrest fun ho => by
      change (restOk s && ready s && !s.wopen) = true
      simp [hrest, hr, ho]
  case h_3 he =>
    simp only [engineOk, he, Bool.and_eq_true] at hok
    obtain ⟨⟨hrest, hr⟩, ho⟩ := hok
    exact refuseIf_keeps h hrest fun _ => by
      change (restOk s && ready s && !s.wopen) = true
      simp only [hrest, hr, ho, Bool.and_self]
  case h_4 he =>
    simp only [engineOk, he, Bool.and_eq_true] at hok
    obtain ⟨⟨hrest, hr⟩, ho⟩ := hok
    exact refuseIf_keeps h hrest fun _ => callCommand_ok _ (noWrite_of_restOk hrest (by simpa using ho)) hr
  case h_5 left he =>
    simp only [engineOk, he, Bool.and_eq_true] at hok
    obtain ⟨⟨hw, hr⟩, hc⟩ := hok
    obtain hready := ready_ok (s := rcv s) hw hr hc
    refine ⟨h.block, h.wcur, ?_⟩
    simp only [tokenStep]
    split
    · exact retryNext_ok (fun n => (hready n .error).1) (hready 0 .error).2.2
    · split
      · exact packet_ok (s := rcv s) hw hr hc (by decide)
      · exact (hready 0 .error).2.2
  case h_6 j he =>
    simp only [engineOk, he, Bool.and_eq_true] at hok
    obtain ⟨⟨⟨hw, hr⟩, hc⟩, hj⟩ := hok
    refine storeAt_keeps _ _ _ _ ⟨h.block, h.wcur, ?_⟩
    split
    · next hj' => exact packet_ok (s := rcv s) hw hr hc hj'
    · exact (ready_ok (s := rcv s) hw hr hc 0 _).2.2
  case h_7 r he =>
    simp only [engineOk, he, Bool.and_eq_true] at hok
    exact deselStep_keeps h hok.1
  case h_8 r he =>
    simp only [engineOk, he] at hok
    exact finish_keeps r h hok
  case h_9 => exact h

/-! ### WRITE data and WRITE open -/

theorem sub_one_toNat {v : BitVec 10} (h : 0 < v.toNat) : (v - 1).toNat = v.toNat - 1 := by
  have := v.isLt
  rw [BitVec.toNat_sub]
  simp
  omega

theorem writeDataStep_keeps {count : Word} {source : BAddr} {s : State} (h : EngineInv s) :
    EngineInv (writeDataStep count source s) := by
  have hok := h.engine
  unfold writeDataStep
  split
  case h_1 he =>
    simp only [engineOk, he] at hok
    refine refuseIf_keeps h hok fun _ => ?_
    split
    · exact hok
    · next hn =>
      change (restOk s && decide (0 < sendCount count s ∧ sendCount count s - 0 ≤ s.wcur.toNat)) = true
      have hle : sendCount count s ≤ s.wcur.toNat := Nat.min_le_right _ _
      simp only [hok, Bool.true_and, decide_eq_true_eq]
      omega
  case h_2 i n he =>
    simp only [engineOk, he, Bool.and_eq_true, decide_eq_true_eq] at hok
    obtain ⟨hrest, hi, hn⟩ := hok
    have hcur : (s.wcur - 1).toNat = s.wcur.toNat - 1 := sub_one_toNat (by omega)
    have hrest' : restOk (sendDataStep source i n s) = true := by
      obtain ⟨ho, hr, hc⟩ | ⟨-, hcur0, -⟩ := (restOk_iff s).mp hrest
      · exact (restOk_iff _).mpr (.inl ⟨ho, hr, hc⟩)
      · simp [hcur0] at hn; omega
    have hwcur := h.wcur
    refine ⟨h.block, by simp only [sendDataStep, goto_wcur, hcur]; omega, ?_⟩
    unfold sendDataStep at hrest' ⊢
    split
    · next hlt =>
      exact Bool.and_eq_true_iff.mpr ⟨hrest', decide_eq_true ⟨hlt, by simp only [goto_wcur, hcur]; omega⟩⟩
    · exact hrest'
  case h_3 r he =>
    simp only [engineOk, he] at hok
    exact finish_keeps r h hok
  case h_4 => exact h

theorem writeOpenStep_keeps {sector : Word} {s : State} (h : EngineInv s) : EngineInv (writeOpenStep sector s) := by
  have hok := h.engine
  unfold writeOpenStep
  split
  case h_1 he =>
    simp only [engineOk, he] at hok
    exact refuseIf_keeps h hok fun hr => by
      change (restOk s && ready s) = true
      simpa [hok] using hr
  case h_2 he =>
    simp only [engineOk, he, Bool.and_eq_true] at hok
    obtain ⟨hrest, hr⟩ := hok
    exact refuseIf_keeps h hrest fun ho => callCommand_ok _ (noWrite_of_restOk hrest ho) hr
  case h_3 he =>
    simp only [engineOk, he] at hok
    exact ⟨h.block, h.wcur, hok⟩
  case h_4 he =>
    simp only [engineOk, he, Bool.and_eq_true] at hok
    obtain ⟨⟨hw, hr⟩, hc⟩ := hok
    exact ⟨h.block, Nat.le_refl 512, (restOk_iff (openTokenStep s)).mpr (.inl ⟨rfl, hr, hc⟩)⟩
  case h_5 r he =>
    simp only [engineOk, he, Bool.and_eq_true] at hok
    exact deselStep_keeps h hok.1
  case h_6 r he =>
    simp only [engineOk, he] at hok
    exact finish_keeps r h hok
  case h_7 => exact h

/-! ### `close_write` -/

/-- What holds at every position of `close_write` but the first. -/
theorem close_ok {k : CloseFor} {s : State} (ho : s.wopen = true) (hk : closeForOk k s = true) (hc : s.csa = true)
    (hcur : s.wcur = 0) (second : Bool) (left : Nat) (r : Result) :
    engineOk (goto (.closeCrc k second) s) = true ∧ engineOk (goto (.closeResp k) s) = true
      ∧ engineOk (goto (.closeBusy k left) s) = true ∧ engineOk (goto (.closeDesel k r) s) = true := by
  have h : (s.wopen && closeForOk k s && s.csa && decide (s.wcur = 0)) = true := by simp [ho, hk, hc, hcur]
  exact ⟨h, h, h, h⟩

theorem closeStart_ok {k : CloseFor} {s : State} (ho : s.wopen = true) (hk : closeForOk k s = true) (hc : s.csa = true) :
    engineOk (goto (closeStart k s) s) = true := by
  unfold closeStart
  split
  · next hcur => exact (close_ok ho hk hc hcur false 0 .ok).1
  · next hcur =>
    change (s.wopen && closeForOk k s && s.csa && decide (s.wcur ≠ 0)) = true
    rw [ho, hk, hc]
    exact decide_eq_true hcur

theorem wcur_le_of_zero {s : State} (h : s.wcur = 0) : s.wcur.toNat ≤ sectorSize := by
  rw [h]; exact Nat.zero_le _

section CloseSteps

variable {k : CloseFor} {s : State} (hblock : s.block = true → s.family = .sdv2) (ho : s.wopen = true)
  (hk : closeForOk k s = true) (hc : s.csa = true)

include hblock ho hk hc

theorem closePadStep_keeps (hwcur : s.wcur.toNat ≤ sectorSize) (hne : s.wcur ≠ 0) : EngineInv (closePadStep k s) := by
  have hpos : 0 < s.wcur.toNat := Nat.pos_of_ne_zero fun h => hne (BitVec.eq_of_toNat_eq h)
  refine ⟨hblock, ?_, closeStart_ok (s := { xchg 0x00 s with wcur := s.wcur - 1 }) ho hk hc⟩
  simp only [closePadStep, goto_wcur, sub_one_toNat hpos]
  omega

variable (hcur : s.wcur = 0)

include hcur

theorem closeCrcStep_keeps (second : Bool) : EngineInv (closeCrcStep k second s) := by
  obtain ⟨hcrc, hresp, -⟩ := close_ok (s := xchg 0x00 s) ho hk hc hcur true 0 .ok
  refine ⟨hblock, wcur_le_of_zero (s := s) hcur, ?_⟩
  unfold closeCrcStep
  split <;> assumption

theorem closeRespStep_keeps : EngineInv (closeRespStep k s) := by
  obtain ⟨-, -, hbusy, hdesel⟩ := close_ok (s := rcv s) ho hk hc hcur true (s.par.retryBusy - 1) .error
  refine ⟨hblock, wcur_le_of_zero (s := s) hcur, ?_⟩
  simp only [closeRespStep]
  split <;> assumption

theorem closeBusyStep_keeps (left : Nat) : EngineInv (closeBusyStep k left s) := by
  have hpos := close_ok (s := rcv s) ho hk hc hcur true
  refine ⟨hblock, wcur_le_of_zero (s := s) hcur, ?_⟩
  simp only [closeBusyStep]
  split
  · exact (hpos 0 .ok).2.2.2
  · exact retryNext_ok (fun n => (hpos n .ok).2.2.1) (hpos 0 .error).2.2.2

end CloseSteps

theorem closeDeselStep_keeps {k : CloseFor} {s : State} (hblock : s.block = true → s.family = .sdv2)
    (hk : closeForOk k s = true) (hcur : s.wcur = 0) (r : Result) : EngineInv (closeDeselStep k r s) := by
  refine ⟨hblock, wcur_le_of_zero (s := s) hcur, ?_⟩
  have hw : noWrite (deselect { s with wopen := false }) = true := (noWrite_iff _).mpr ⟨rfl, hcur⟩
  cases k with
  | op => exact restOk_of_noWrite hw rfl
  | init => exact Bool.and_eq_true_iff.mpr ⟨hw, hk⟩

theorem writeCloseStep_keeps {s : State} (h : EngineInv s) : EngineInv (writeCloseStep s) := by
  have hok := h.engine
  unfold writeCloseStep
  split
  case h_1 he =>
    simp only [engineOk, he] at hok
    refine refuseIf_keeps h hok fun ho => ?_
    obtain ⟨ho, hr, hc⟩ | ⟨hno, -, -⟩ := (restOk_iff s).mp hok
    · exact closeStart_ok ho hr hc
    · simp [hno] at ho
  case h_2 he =>
    simp only [engineOk, he, Bool.and_eq_true, decide_eq_true_eq] at hok
    obtain ⟨⟨⟨ho, hk⟩, hc⟩, hne⟩ := hok
    exact closePadStep_keeps h.block ho hk hc h.wcur hne
  case h_3 second he =>
    simp only [engineOk, he, Bool.and_eq_true, decide_eq_true_eq] at hok
    obtain ⟨⟨⟨ho, hk⟩, hc⟩, hcur⟩ := hok
    exact closeCrcStep_keeps h.block ho hk hc hcur second
  case h_4 he =>
    simp only [engineOk, he, Bool.and_eq_true, decide_eq_true_eq] at hok
    obtain ⟨⟨⟨ho, hk⟩, hc⟩, hcur⟩ := hok
    exact closeRespStep_keeps h.block ho hk hc hcur
  case h_5 left he =>
    simp only [engineOk, he, Bool.and_eq_true, decide_eq_true_eq] at hok
    obtain ⟨⟨⟨ho, hk⟩, hc⟩, hcur⟩ := hok
    exact closeBusyStep_keeps h.block ho hk hc hcur left
  case h_6 r he =>
    simp only [engineOk, he, Bool.and_eq_true, decide_eq_true_eq] at hok
    obtain ⟨⟨⟨ho, hk⟩, hc⟩, hcur⟩ := hok
    exact closeDeselStep_keeps h.block hk hcur r
  case h_7 r he =>
    simp only [engineOk, he] at hok
    exact finish_keeps r h hok
  case h_8 => exact h

/-! ### INIT -/

theorem initDesel_ok {s : State} (hw : noWrite s = true) (hr : ready s = false) (hc : s.csa = false) :
    engineOk (goto .initDesel s) = true := by
  change (noWrite s && !ready s && !s.csa) = true
  rw [hw, hr, hc]; rfl

theorem initStart_keeps {s : State} (h : EngineInv s) (hrest : restOk s = true) : EngineInv (initStart s) := by
  have hblock : (clearDescriptor s).block = true → (clearDescriptor s).family = .sdv2 := nofun
  unfold initStart
  obtain ⟨ho, -, hc⟩ | ⟨ho, hcur, -⟩ := (restOk_iff s).mp hrest
  · rw [if_pos ho]
    split
    · next hcur => exact closeCrcStep_keeps (s := clearDescriptor s) hblock ho rfl hc hcur false
    · next hne => exact closePadStep_keeps (s := clearDescriptor s) hblock ho rfl hc h.wcur hne
  · rw [if_neg (by simp [ho])]
    exact ⟨hblock, h.wcur, initDesel_ok (s := tinit (clearDescriptor s)) ((noWrite_iff _).mpr ⟨ho, hcur⟩) rfl rfl⟩

theorem powerUpStep_keeps {s : State} (left : Nat) (h : EngineInv s) (hw : noWrite s = true) (hr : ready s = false)
    (hc : s.csa = false) (hl : left < nPwrUp) : EngineInv (powerUpStep left s) := by
  refine ⟨h.block, h.wcur, ?_⟩
  cases left with
  | zero => exact callCommand_ok (s := rcv s) (k := .initIdle _) _ hw (congrArg (!·) hr)
  | succ n =>
    change (noWrite s && !ready s && !s.csa && decide (n < nPwrUp)) = true
    rw [hw, hr, hc]
    exact decide_eq_true (by omega)

theorem afterEcho_ok {s : State} (p : Params) (w : Word) (hw : noWrite s = true) (hr : ready s = false) :
    engineOk (goto (afterEcho p w) s) = true := by
  unfold afterEcho
  split
  · exact callCommand_ok (k := .initHcs _) _ hw (congrArg (!·) hr)
  · exact initEnd_ok _ _ hw hr

theorem afterOcr_ok {s : State} (w : Word) (hw : noWrite s = true) (hr : ready s = false) :
    engineOk (goto (afterOcr w) s) = true := by
  unfold afterOcr
  split
  · exact initEnd_ok _ _ hw hr
  · exact callCommand_ok (k := .initBlockLen _) _ hw (congrArg (!·) hr)

theorem rd4Step_keeps {s : State} (k : WordFor) (left : Nat) (acc : Word) (h : EngineInv s) (hw : noWrite s = true)
    (hr : ready s = false) (hc : s.csa = true) (hl : left < 4) : EngineInv (rd4Step k left acc s) := by
  cases left with
  | zero =>
    refine ⟨h.block, h.wcur, ?_⟩
    cases k with
    | echo => exact afterEcho_ok (s := { rcv s with ocr := acc <<< 8 ||| (cardByte s).setWidth 32 }) _ _ hw hr
    | ocr => exact afterOcr_ok (s := { rcv s with ocr := acc <<< 8 ||| (cardByte s).setWidth 32 }) _ hw hr
  | succ n => exact ⟨h.block, h.wcur, rd4_ok (s := rcv s) k _ hw hr hc (by omega)⟩

theorem initEndStep_keeps {s : State} (fam : Family) (blk : Bool) (h : EngineInv s) (hw : noWrite s = true) :
    EngineInv (initEndStep fam blk s) := by
  refine ⟨fun hb => of_decide_eq_true (Bool.and_eq_true_iff.mp hb).1, h.wcur, ?_⟩
  unfold initEndStep
  split
  · exact restOk_of_noWrite (s := deselect { s with family := fam, block := decide (fam = .sdv2) && blk }) hw rfl
  · next hfam =>
    change (noWrite s && decide (fam ≠ .unknown) && !false) = true
    rw [hw, decide_eq_true hfam]; rfl

theorem initStep_keeps {s : State} (h : EngineInv s) : EngineInv (initStep s) := by
  have hok := h.engine
  unfold initStep
  split
  case h_1 he =>
    simp only [engineOk, he] at hok
    exact initStart_keeps h hok
  case h_2 he =>
    simp only [engineOk, he, Bool.and_eq_true, decide_eq_true_eq] at hok
    obtain ⟨⟨⟨ho, hk⟩, hc⟩, hne⟩ := hok
    exact closePadStep_keeps h.block ho hk hc h.wcur hne
  case h_3 second he =>
    simp only [engineOk, he, Bool.and_eq_true, decide_eq_true_eq] at hok
    obtain ⟨⟨⟨ho, hk⟩, hc⟩, hcur⟩ := hok
    exact closeCrcStep_keeps h.block ho hk hc hcur second
  case h_4 he =>
    simp only [engineOk, he, Bool.and_eq_true, decide_eq_true_eq] at hok
    obtain ⟨⟨⟨ho, hk⟩, hc⟩, hcur⟩ := hok
    exact closeRespStep_keeps h.block ho hk hc hcur
  case h_5 left he =>
    simp only [engineOk, he, Bool.and_eq_true, decide_eq_true_eq] at hok
    obtain ⟨⟨⟨ho, hk⟩, hc⟩, hcur⟩ := hok
    exact closeBusyStep_keeps h.block ho hk hc hcur left
  case h_6 r he =>
    simp only [engineOk, he, Bool.and_eq_true, decide_eq_true_eq] at hok
    obtain ⟨⟨⟨ho, hk⟩, hc⟩, hcur⟩ := hok
    exact closeDeselStep_keeps h.block hk hcur r
  case h_7 he =>
    simp only [engineOk, he, Bool.and_eq_true, Bool.not_eq_true'] at hok
    obtain ⟨hw, hr⟩ := hok
    exact ⟨h.block, h.wcur, initDesel_ok (s := tinit s) hw hr rfl⟩
  case h_8 he =>
    simp only [engineOk, he, Bool.and_eq_true, Bool.not_eq_true'] at hok
    obtain ⟨⟨hw, hr⟩, hc⟩ := hok
    refine ⟨h.block, h.wcur, ?_⟩
    change (noWrite s && !ready s && !false && decide (nPwrUp - 1 < nPwrUp)) = true
    rw [hw, hr]; rfl
  case h_9 left he =>
    simp only [engineOk, he, Bool.and_eq_true, Bool.not_eq_true', decide_eq_true_eq] at hok
    obtain ⟨⟨⟨hw, hr⟩, hc⟩, hl⟩ := hok
    exact powerUpStep_keeps left h hw hr hc hl
  case h_10 k left acc he =>
    simp only [engineOk, he, Bool.and_eq_true, Bool.not_eq_true', decide_eq_true_eq] at hok
    obtain ⟨⟨⟨hw, hr⟩, hc⟩, hl⟩ := hok
    exact rd4Step_keeps k left acc h hw hr hc hl
  case h_11 fam blk he =>
    simp only [engineOk, he, Bool.and_eq_true] at hok
    exact initEndStep_keeps fam blk h hok.1
  case h_12 he =>
    simp only [engineOk, he, Bool.and_eq_true, Bool.not_eq_true'] at hok
    obtain ⟨⟨hw, -⟩, hc⟩ := hok
    exact ⟨h.block, h.wcur, restOk_of_noWrite (s := setFastMode s) hw hc⟩
  case h_13 r he =>
    simp only [engineOk, he] at hok
    exact finish_keeps r h hok
  case h_14 => exact h

theorem reservedStep_keeps {s : State} (h : EngineInv s) : EngineInv (reservedStep s) := by
  have hok := h.engine
  unfold reservedStep
  split
  case h_1 he | h_2 he =>
    simp only [engineOk, he] at hok
    exact finish_keeps _ h hok
  case h_3 => exact h

theorem EngineEffect.engineInv {i : Instr} {s t : State} (he : EngineEffect s i t) (h : EngineInv s) : EngineInv t := by
  cases he with
  | init => exact initStep_keeps h
  | read | readSkip => exact readStep_keeps h
  | writeData => exact writeDataStep_keeps h
  | writeOpen => exact writeOpenStep_keeps h
  | writeClose => exact writeCloseStep_keeps h
  | reserved => exact reservedStep_keeps h
  | command => exact cardCommandStep_keeps h

/-! ### Block memory -/

/-- Block memory is in canonical form, and inside its bounds. -/
def MemInv (s : State) : Prop :=
  Memory.wf s.mem = true ∧ memInside s = true

theorem MemInv.congr {s t : State} (h : MemInv s) (hm : t.mem = s.mem) (hp : t.par = s.par) : MemInv t := by
  unfold MemInv memInside
  rw [hm, hp]
  exact h

theorem MemInv.memWrite {s : State} (h : MemInv s) (a : Nat) (v : Byte) : MemInv (memWrite a v s) :=
  ⟨memWrite_wf a v s h.1, by rw [memInside, memWrite_par]; exact memWrite_inside a v s h.2⟩

theorem MemInv.windowWrite {s : State} (h : MemInv s) (w : Width) (a : Nat) (v : Word) : MemInv (windowWrite w a v s) := by
  have hword : MemInv (memWriteWord a v s) := (((h.memWrite _ _).memWrite _ _).memWrite _ _).memWrite _ _
  cases w
  case w8 => exact h.memWrite _ _
  all_goals exact hword

theorem MemInv.storeAt {s : State} (h : MemInv s) (a : Option Nat) (v : Byte) : MemInv (storeAt a v s) := by
  cases a with
  | none => exact h
  | some a => exact h.memWrite a v

theorem MemInv.readStep {s : State} (h : MemInv s) (sector : Word) (offset count : BitVec 10) (dest : Option BAddr) :
    MemInv (readStep sector offset count dest s) := by
  unfold Machine.readStep
  split
  case h_6 j _ => exact (MemInv.storeAt (s := rcv s) h _ _).congr rfl rfl
  case h_1 | h_2 | h_3 | h_4 => rw [refuseIf_frame]; exact h
  all_goals exact h

/-! ### The invariant -/

theorem EngineEffect.par_eq {i : Instr} {s t : State} (h : EngineEffect s i t) : t.par = s.par := by
  cases h with
  | init => rw [initStep_frame]
  | read | readSkip => rw [readStep_frame]
  | writeData => rw [writeDataStep_frame]
  | writeOpen => rw [writeOpenStep_frame]
  | writeClose => rw [writeCloseStep_frame]
  | reserved => rw [reservedStep_frame]
  | command => rw [cardCommandStep_frame]

theorem EngineEffect.memInv {i : Instr} {s t : State} (he : EngineEffect s i t) (h : MemInv s) : MemInv t := by
  cases he with
  | read | readSkip => exact h.readStep _ _ _ _
  | init => rw [initStep_frame]; exact h.congr rfl rfl
  | writeData => rw [writeDataStep_frame]; exact h.congr rfl rfl
  | writeOpen => rw [writeOpenStep_frame]; exact h.congr rfl rfl
  | writeClose => rw [writeCloseStep_frame]; exact h.congr rfl rfl
  | reserved => rw [reservedStep_frame]; exact h.congr rfl rfl
  | command => rw [cardCommandStep_frame]; exact h.congr rfl rfl

/-- R47 and R245: the range of the fill cursor, and the pulse-width counter of a disabled output. -/
structure AudioInv (s : State) : Prop where
  params : paramsOk s.par = true
  acur : s.acur.toNat ≤ s.par.bufSize
  pcnt : s.pen = false → s.pcnt = 0

theorem AudioInv.congr {s t : State} (h : AudioInv s) (hp : t.par = s.par) (ha : audioPart t = audioPart s) : AudioInv t := by
  have hacur : t.acur = s.acur := congrArg AudioPart.acur ha
  have hpen : t.pen = s.pen := congrArg AudioPart.pen ha
  have hpcnt : t.pcnt = s.pcnt := congrArg AudioPart.pcnt ha
  exact ⟨hp ▸ h.params, by rw [hacur, hp]; exact h.acur, by rw [hpen, hpcnt]; exact h.pcnt⟩

theorem bufSize_range {p : Params} (h : paramsOk p = true) : 1 ≤ p.bufSize ∧ p.bufSize ≤ 32512 := by
  have hp := of_decide_eq_true h
  exact ⟨hp.1, hp.2.1⟩

/-- A tick moves the fill cursor within the active buffer, or to the start of the other. -/
theorem tickStep_audioInv {s : State} (h : AudioInv s) : AudioInv (tickStep s) := by
  obtain ⟨hlo, hhi⟩ := bufSize_range h.params
  have hacur := h.acur
  refine ⟨by rw [tickStep_frame]; exact h.params, ?_, by rw [tickStep_frame]; exact h.pcnt⟩
  by_cases h0 : s.arem = 0
  · rw [tickStep_drained h0]; exact hacur
  by_cases hcur : s.acur.toNat = s.par.bufSize
  · rw [tickStep_exhausted h0 hcur]; exact hlo
  · rw [tickStep_within h0 hcur]
    change (s.acur + 1).toNat ≤ s.par.bufSize
    rw [BitVec.toNat_add]
    simp
    omega

theorem writeActrl_audioInv {s : State} (v : Word) (h : AudioInv s) : AudioInv (writeActrl v s) := by
  refine ⟨by rw [writeActrl_frame]; exact h.params, ?_, fun hpen => ?_⟩
  · unfold writeActrl
    cases v.getLsbD 3
    · exact h.acur
    · exact Nat.zero_le _
  · have hv : v.getLsbD 1 = false := by rw [writeActrl_frame] at hpen; exact hpen
    unfold writeActrl
    rw [hv]
    cases v.getLsbD 3 <;> simp [indexReset]

theorem pwmClock_audioInv {s : State} (h : AudioInv s) : AudioInv (pwmClock s) := by
  unfold pwmClock
  split
  · next hpen => exact ⟨h.params, h.acur, fun hno => absurd (hpen.symm.trans hno) (by decide)⟩
  · exact h

theorem blockInv_iff (s : State) : BlockInv s ↔ AudioInv s ∧ MemInv s ∧ EngineInv s :=
  ⟨fun h => ⟨⟨h.params, h.acur, h.pcnt⟩, ⟨h.memory, h.inside⟩, ⟨h.block, h.wcur, h.engine⟩⟩,
    fun ⟨ha, hm, he⟩ => ⟨ha.params, he.block, he.wcur, ha.acur, ha.pcnt, hm.1, hm.2, he.engine⟩⟩

theorem writeCmd_keeps {s : State} (v : Word) (h : EngineInv s) : EngineInv (writeCmd v s) := by
  cases hb : busy s with
  | true => rw [writeCmd_busy v hb]; exact ⟨h.block, h.wcur, h.engine⟩
  | false =>
    have hidle : s.eng = .idle := by simpa [busy] using hb
    have hrest := h.engine
    simp only [engineOk, hidle] at hrest
    rw [writeCmd_idle v hb]
    exact ⟨h.block, h.wcur, hrest⟩

theorem HostEffect.blockInv {i : Instr} {s t : State} (he : HostEffect s i t) (h : BlockInv s) : BlockInv t := by
  obtain ⟨ha, hm, hg⟩ := (blockInv_iff s).mp h
  cases he with
  | cmd v =>
    have hg' := writeCmd_keeps v hg
    rw [writeCmd_frame] at hg' ⊢
    exact (blockInv_iff _).mpr ⟨ha.congr rfl rfl, hm.congr rfl rfl, hg'.block, hg'.wcur, hg'.engine⟩
  | actrl v =>
    have ha' := writeActrl_audioInv v ha
    rw [writeActrl_frame] at ha' ⊢
    exact (blockInv_iff _).mpr ⟨ha'.congr rfl rfl, hm.congr rfl rfl, hg.block, hg.wcur, hg.engine⟩
  | window a w v =>
    have hm' := hm.windowWrite w a.toNat v
    rw [windowWrite_frame] at hm' ⊢
    exact (blockInv_iff _).mpr ⟨ha.congr rfl rfl, hm'.congr rfl rfl, hg.block, hg.wcur, hg.engine⟩
  | _ => exact ⟨h.params, h.block, h.wcur, h.acur, h.pcnt, h.memory, h.inside, h.engine⟩

theorem EngineEffect.blockInv {i : Instr} {s t : State} (he : EngineEffect s i t) (h : BlockInv s) : BlockInv t := by
  obtain ⟨ha, hm, hg⟩ := (blockInv_iff s).mp h
  exact (blockInv_iff t).mpr ⟨ha.congr he.par_eq he.audioPart_eq, he.memInv hm, he.engineInv hg⟩

theorem tickStep_blockInv {s : State} (h : BlockInv s) : BlockInv (tickStep s) := by
  obtain ⟨ha, hm, hg⟩ := (blockInv_iff s).mp h
  refine (blockInv_iff _).mpr ⟨tickStep_audioInv ha, ?_⟩
  rw [tickStep_frame]
  exact ⟨hm, hg.block, hg.wcur, hg.engine⟩

theorem moveStep_blockInv {m : Move} {s t : State} (hstep : moveStep m s = .next t) (h : BlockInv s) : BlockInv t := by
  have htcnt (n : BitVec 16) : BlockInv { s with tcnt := n } :=
    ⟨h.params, h.block, h.wcur, h.acur, h.pcnt, h.memory, h.inside, h.engine⟩
  cases m with
  | host r =>
    obtain rfl | ⟨i, -, he⟩ := hostMove_effect hstep
    · exact ⟨h.params, h.block, h.wcur, h.acur, h.pcnt, h.memory, h.inside, h.engine⟩
    · exact he.blockInv h
  | engine =>
    obtain rfl | ⟨i, -, he⟩ := engineMove_effect hstep
    · exact h
    · exact he.blockInv h
  | tclk =>
    obtain ⟨-, -, rfl⟩ | rfl := timerMove_effect hstep
    · exact tickStep_blockInv (htcnt 0)
    · obtain ⟨n, hn⟩ := countTimer_cases s
      exact hn ▸ htcnt n
  | pclk =>
    cases hstep
    obtain ⟨ha, hm, hg⟩ := (blockInv_iff s).mp h
    refine (blockInv_iff _).mpr ⟨pwmClock_audioInv ha, ?_⟩
    obtain ⟨n, hn⟩ := pwmClock_cases s
    rw [hn]
    exact ⟨hm, hg.block, hg.wcur, hg.engine⟩
  | reset =>
    cases hstep
    have hreset := resetMeetsTheInvariant s.par h.params
    exact ⟨hreset.params, hreset.block, hreset.wcur, hreset.acur, hreset.pcnt, hreset.memory, hreset.inside, hreset.engine⟩

theorem takeMove_blockInv {s : State} (h : BlockInv s) : BlockInv (takeMove s) := by
  obtain ⟨n, ht⟩ | ⟨ms, ht⟩ := takeMove_cases s <;> rw [ht] <;>
    exact ⟨h.params, h.block, h.wcur, h.acur, h.pcnt, h.memory, h.inside, h.engine⟩

/-- Settles O11: taking the move keeps the invariant, and so does every move. -/
theorem stepKeepsTheInvariant : Obligations.StepKeepsTheInvariant :=
  fun _ _ h hstep => moveStep_blockInv hstep (takeMove_blockInv h)

/-! ### The tick under the invariant (R254) -/

/-- Settles O30: the cursor is inside the active buffer, or at the end of it and the tick starts the other. -/
theorem tickReadsInsideTheActiveBuffer : Obligations.TickReadsInsideTheActiveBuffer := by
  intro s h h0
  obtain ⟨hlo, hhi⟩ := bufSize_range h.params
  have hacur := h.acur
  have harem : (s.arem - 1).toNat + 1 = s.arem.toNat := by
    have hpos : s.arem.toNat ≠ 0 := fun hz => h0 (BitVec.eq_of_toNat_eq hz)
    rw [BitVec.toNat_sub]
    simp
    omega
  have hbmem (b : Bool) (j : Nat) (hj : j < s.par.bufSize) : (if b then s.par.bufSize else 0) + j < bmemSize s.par := by
    unfold bmemSize
    split <;> omega
  obtain ⟨-, hwithin, hexhausted⟩ := tickEmitsOneSample
  by_cases hcur : s.acur.toNat = s.par.bufSize
  · refine ⟨_, 0, hexhausted s h0 hcur, hlo, rfl, ?_, hbmem _ 0 hlo, harem⟩
    cases s.active <;> rfl
  · have hj : s.acur.toNat < s.par.bufSize := by omega
    refine ⟨_, s.acur.toNat, hwithin s h0 hcur, hj, ?_, rfl, hbmem _ _ hj, harem⟩
    rw [BitVec.toNat_add]
    simp
    omega

end Sys2Proof.Machine

/-! PROOFS. The engine's steps one by one: `send_command` (41_card_commands.md), INIT (42_initialize.md), READ and WRITE
(43_block_io.md), each with its frame, and where a response leads. -/

namespace Sys2Proof.Machine

/-! ### Bits and bytes -/

/-- The five low bits of a data response, as a mask and as a field (R106). -/
theorem dataAccepted_iff (d : Byte) : dataAccepted d = true ↔ d &&& 0x1F = 0x05 := by
  have h : ∀ d : Byte, dataAccepted d = decide (d &&& 0x1F = 0x05) := by decide
  rw [h, decide_eq_true_iff]

theorem sub_one_eq_zero_iff (v : BitVec 10) : v - 1 = 0 ↔ v = 1 := by
  rw [sub_eq_zero]

/-- Shifting a byte in at the low end. -/
theorem shiftLeft_or_eq_append (acc : Word) (b : Byte) : acc <<< 8 ||| b.setWidth 32 = acc.extractLsb' 0 24 ++ b := by
  refine BitVec.eq_of_getLsbD_eq fun i hi => ?_
  rw [BitVec.getLsbD_append, BitVec.getLsbD_or, BitVec.getLsbD_shiftLeft, BitVec.getLsbD_setWidth,
    BitVec.getLsbD_extractLsb']
  by_cases h8 : i < 8
  · simp [h8, hi]
  · have hb : b.getLsbD i = false := BitVec.getLsbD_of_ge b i (by omega)
    simp [h8, hi, hb]
    omega

theorem cardAddress_eq (block : Bool) (sector : Word) :
    cardAddress block sector = if block then sector else BitVec.ofNat 32 (sector.toNat * 512) := by
  unfold cardAddress
  split
  · rfl
  · exact BitVec.eq_of_toNat_eq (by simp [Nat.shiftLeft_eq])

/-- `retry`: the last attempt times out, any other is followed by the next (R152). -/
theorem retryNext_eq (left : Nat) (again : Nat → EnginePos) (timeout : EnginePos) :
    retryNext left again timeout = if left = 0 then timeout else again (left - 1) := by
  cases left <;> rfl

/-! ### Responses (R183 to R189, R213, R219) -/

/-- Settles O44. -/
theorem responsesDecideTheNextStep : Obligations.ResponsesDecideTheNextStep := by
  intro p r
  have hprobe : resume p .initProbe r = if r.toNat ≤ 1
      then .cmd (.lead false (.initLoop .sdv1 (p.retryInit - 1))) .cmd55 .desel
      else .cmd (.plain (.initLoop .mmcv3 (p.retryInit - 1))) .cmd1 .desel := by
    by_cases hr : r.toNat ≤ 1 <;> simp [resume, afterProbe, probeOk, loopCmd, callCommand, hr]
  refine ⟨fun left => ?_, ?_, fun left => ?_, ?_, hprobe, fun left => ?_, fun left => ?_, fun fam => ?_, ?_, ?_, fun w => ?_,
    fun w => rfl⟩
  all_goals simp only [resume, afterIdleReset, afterVersion, afterHcs, afterCapacity, afterLoop, afterBlockLen,
    afterReadCmd, afterOpenCmd, afterEcho, retryNext_eq, callCommand, loopCmd, initFailed, idleR1, readyR1,
    echoOk, decide_eq_true_eq]

/-! ### `send_command` (R150) -/

theorem exec_cardCmd (c : CardCmd) (s : State) : exec c.instr s = .next (cardCommandStep c s) := by
  cases c <;> rfl

theorem cardCommandStep_at {s : State} {ret : Ret} {c : CardCmd} {ph : CmdPhase} (h : s.eng = .cmd ret c ph) :
    cardCommandStep c s = sendStep ret c ph s := by
  simp only [cardCommandStep, h, if_true]

theorem exec_cardCmd_at {s : State} {ret : Ret} {c : CardCmd} {ph : CmdPhase} (h : s.eng = .cmd ret c ph) :
    exec c.instr s = .next (sendStep ret c ph s) := by
  rw [exec_cardCmd, cardCommandStep_at h]

theorem frame_getD {c : CardCmd} {k : Nat} (hk : k ≤ 5) : c.frame.getD k 0 = c.frameByte k := by
  interval_cases k <;> rfl

/-- The end of a poll: the byte received is returned, and kept in `LASTR1` (R163). -/
def pollDone (ret : Ret) (s : State) : State :=
  goto (returned s.par ret (cardByte s)) { rcv s with lastR1 := cardByte s }

theorem pollStep_zero (ret : Ret) (c : CardCmd) (s : State) : pollStep ret c 0 s = pollDone ret s :=
  ite_self (pollDone ret s)

theorem pollStep_valid (ret : Ret) (c : CardCmd) (left : Nat) {s : State} (h : (cardByte s).getLsbD 7 = false) :
    pollStep ret c left s = pollDone ret s :=
  if_pos (congrArg (!·) h)

theorem pollStep_invalid (ret : Ret) (c : CardCmd) (left : Nat) {s : State} (h : (cardByte s).getLsbD 7 = true) :
    pollStep ret c (left + 1) s = goto (.cmd ret c (.poll left)) (rcv s) :=
  if_neg (fun hv => absurd (h.symm.trans ((Bool.not_eq_true' _).mp hv)) (by decide))

/-- Settles O37. -/
theorem cardCommandSteps : Obligations.CardCommandSteps := by
  intro s ret c
  refine ⟨fun h => ⟨_, exec_cardCmd_at h, rfl⟩, fun h => exec_cardCmd_at h, fun h => ⟨_, exec_cardCmd_at h, rfl⟩,
    fun k hk h => ⟨_, exec_cardCmd_at h, ?_⟩, fun left h => ⟨_, exec_cardCmd_at h, ?_⟩⟩
  · rw [frame_getD hk]
    by_cases h5 : k = 5
    · subst h5; rfl
    · rw [if_neg h5, sendStep, frameByteStep, if_pos (by omega)]; rfl
  · by_cases hv : (cardByte s).getLsbD 7 = true
    · cases left with
      | zero => rw [sendStep, pollStep_zero, if_neg (fun h => h.2 rfl), if_neg (fun h => h.2 rfl)]; rfl
      | succ n => rw [sendStep, pollStep_invalid _ _ _ hv, if_pos ⟨hv, Nat.succ_ne_zero n⟩, if_pos ⟨hv, Nat.succ_ne_zero n⟩]; rfl
    · rw [sendStep, pollStep_valid _ _ _ (eq_false_of_ne_true hv), if_neg (fun h => hv h.1), if_neg (fun h => hv h.1)]; rfl

/-! ### INIT -/

/-- Where the padding goes on, the cursor one lower. -/
theorem closePadStep_eq (k : CloseFor) (s : State) :
    closePadStep k s = goto (if s.wcur = 1 then .closeCrc k false else .closePad k)
      { xchg 0x00 s with wcur := s.wcur - 1 } := by
  simp only [closePadStep, closeStart, sub_one_eq_zero_iff]

theorem closeRespStep_eq (k : CloseFor) (s : State) :
    closeRespStep k s = goto (if cardByte s &&& 0x1F = 0x05 then .closeBusy k (s.par.retryBusy - 1)
      else .closeDesel k .error) (rcv s) := by
  simp only [closeRespStep, dataAccepted_iff]

theorem closeBusyStep_eq (k : CloseFor) (left : Nat) (s : State) :
    closeBusyStep k left s = goto (if cardByte s = 0xFF then .closeDesel k .ok
      else if left = 0 then .closeDesel k .error else .closeBusy k (left - 1)) (rcv s) := by
  simp only [closeBusyStep, retryNext_eq]

theorem powerUpStep_eq (left : Nat) (s : State) :
    powerUpStep left s = goto (if left = 0 then .cmd (.plain (.initIdle (s.par.retryIdle - 1))) .cmd0 .desel
      else .powerUp (left - 1)) (rcv s) := by
  cases left <;> rfl

theorem rd4Step_succ (k : WordFor) (left : Nat) (acc : Word) (s : State) :
    rd4Step k (left + 1) acc s = goto (.rd4 k left (acc.extractLsb' 0 24 ++ cardByte s)) (rcv s) := by
  simp only [rd4Step, shiftLeft_or_eq_append]

theorem rd4Step_echo (acc : Word) (s : State) :
    rd4Step .echo 0 acc s = goto (afterEcho s.par (acc.extractLsb' 0 24 ++ cardByte s))
      { rcv s with ocr := acc.extractLsb' 0 24 ++ cardByte s } := by
  simp only [rd4Step, shiftLeft_or_eq_append]

theorem rd4Step_ocr (acc : Word) (s : State) :
    rd4Step .ocr 0 acc s = goto (afterOcr (acc.extractLsb' 0 24 ++ cardByte s))
      { rcv s with ocr := acc.extractLsb' 0 24 ++ cardByte s } := by
  simp only [rd4Step, shiftLeft_or_eq_append]

theorem initStart_open {s : State} (h : s.wopen = true) :
    initStart s = if s.wcur = 0 then closeCrcStep .init false (clearDescriptor s) else closePadStep .init (clearDescriptor s) :=
  if_pos h

theorem initStart_closed {s : State} (h : s.wopen = false) : initStart s = initTinitStep (clearDescriptor s) :=
  if_neg (by simp [h])

theorem initEndStep_eq (fam : Family) (blk : Bool) (s : State) :
    initEndStep fam blk s = goto (if fam = .unknown then .fin .notRdy else .setFast)
      (deselect { s with family := fam, block := if fam = .sdv2 then blk else false }) := by
  unfold initEndStep
  cases fam <;> simp

theorem exec_init_of {s t : State} (h : initStep s = t) : exec .init s = .next t :=
  congrArg Host.Outcome.next h

/-- Settles O42. -/
theorem initSteps : Obligations.InitSteps := by
  intro s
  refine ⟨fun h hw => exec_init_of ?_, fun h hw => ⟨_, rfl, ?_⟩, fun h => ⟨_, rfl, ?_⟩, fun b h => ⟨_, rfl, ?_⟩, fun h => ⟨_, rfl, ?_⟩,
    fun left h => ⟨_, rfl, ?_⟩, fun r h => ⟨_, rfl, ?_⟩, fun h => exec_init_of ?_, fun h => ⟨_, rfl, ?_⟩, fun left h => ⟨_, rfl, ?_⟩,
    fun k left acc h => ⟨_, rfl, ?_⟩, fun acc h => ⟨_, rfl, ?_⟩, fun acc h => ⟨_, rfl, ?_⟩, fun fam blk h => ⟨_, rfl, ?_⟩,
    fun h => exec_init_of ?_, fun r h => exec_init_of ?_⟩
  all_goals simp only [initStep, h]
  · rw [initStart_closed hw]; rfl
  · rw [initStart_open hw]
    by_cases h0 : s.wcur = 0
    · rw [if_pos h0, if_pos h0, if_pos h0]
      exact congrArg (fun n => { closeCrcStep .init false (clearDescriptor s) with wcur := n }) h0
    · rw [if_neg h0, if_neg h0, if_neg h0, closePadStep_eq]; rfl
  · rw [closePadStep_eq]; rfl
  · rfl
  · rw [closeRespStep_eq]; rfl
  · rw [closeBusyStep_eq]; rfl
  · rfl
  · rfl
  · rfl
  · rw [powerUpStep_eq]; rfl
  · rw [rd4Step_succ]; rfl
  · rw [rd4Step_echo]; rfl
  · rw [rd4Step_ocr]; rfl
  · rw [initEndStep_eq]; rfl
  · rfl
  · rfl

end Sys2Proof.Machine

/-! PROOFS. The engine's steps of READ and WRITE (43_block_io.md), and the bytes a step may send (R110). -/

namespace Sys2Proof.Machine

/-! ### READ -/

theorem tokenStep_eq (left : Nat) (s : State) :
    tokenStep left s = goto (if cardByte s = 0xFF then (if left = 0 then .desel .error else .token (left - 1))
      else if cardByte s = 0xFE then .packet 0 else .desel .error) (rcv s) := by
  simp only [tokenStep, retryNext_eq]

theorem packetStep_eq (dest : Option BAddr) (offset count : BitVec 10) (j : Nat) (s : State) :
    packetStep dest offset count j s = goto (if j + 1 < 514 then .packet (j + 1) else .desel .ok)
      (storeAt (storeAddress dest offset count j) (cardByte s) (rcv s)) := rfl

theorem exec_read_of {sector : Word} {offset count : BitVec 10} {dest : BAddr} {s t : State}
    (h : readStep sector offset count (some dest) s = t) : exec (.read sector offset count dest) s = .next t :=
  congrArg Host.Outcome.next h

theorem exec_readSkip_of {sector : Word} {offset count : BitVec 10} {s t : State}
    (h : readStep sector offset count none s = t) : exec (.readSkip sector offset count) s = .next t :=
  congrArg Host.Outcome.next h

section ReadPositions

variable (sector : Word) (offset count : BitVec 10) (dest : Option BAddr) {s : State}

theorem readStep_token {left : Nat} (h : s.eng = .token left) : readStep sector offset count dest s = tokenStep left s := by
  simp only [readStep, h]

theorem readStep_packet {j : Nat} (h : s.eng = .packet j) :
    readStep sector offset count dest s = packetStep dest offset count j s := by
  simp only [readStep, h]

theorem readStep_desel {r : Result} (h : s.eng = .desel r) : readStep sector offset count dest s = deselStep r s := by
  simp only [readStep, h]

theorem readStep_fin {r : Result} (h : s.eng = .fin r) : readStep sector offset count dest s = finish r s := by
  simp only [readStep, h]

end ReadPositions

/-- Settles O49. -/
theorem readSteps : Obligations.ReadSteps := by
  intro s sector off cnt dest
  refine ⟨fun left h => ⟨_, exec_read_of (readStep_token _ _ _ _ h), exec_readSkip_of (readStep_token _ _ _ _ h), ?_⟩,
    fun j h => ⟨_, exec_readSkip_of (readStep_packet _ _ _ _ h), rfl⟩,
    fun j h => ⟨_, exec_read_of (readStep_packet _ _ _ _ h), ?_, fun a ha hin => ?_, fun hno x => ?_⟩,
    fun r h => ⟨_, exec_read_of (readStep_desel _ _ _ _ h), exec_readSkip_of (readStep_desel _ _ _ _ h), rfl⟩,
    fun r h => ⟨exec_read_of (readStep_fin _ _ _ _ h), exec_readSkip_of (readStep_fin _ _ _ _ h)⟩⟩
  · rw [tokenStep_eq]; rfl
  · rw [packetStep_eq, storeAt_frame]; rfl
  · rw [packetStep_eq, ha]
    exact ⟨memRead_memWrite_same (rcv s) a _ hin, fun x hx => memRead_memWrite_ne (rcv s) a x _ hx⟩
  · rw [packetStep_eq, hno]; rfl

/-! ### WRITE data (R218) -/

theorem refuseIf_true {c : Bool} (r : Result) (p : EnginePos) (s : State) (h : c = true) : refuseIf c r p s = finish r s :=
  if_pos h

theorem refuseIf_false {c : Bool} (r : Result) (p : EnginePos) (s : State) (h : c = false) : refuseIf c r p s = goto p s :=
  if_neg (by simp [h])

theorem writeDataStep_launched_outside {count : Word} {source : BAddr} {s : State} (h : s.eng = .launched)
    (hout : bmemSize s.par < source.toNat + sendCount count s) :
    writeDataStep count source s = finish .parErr s := by
  simp only [writeDataStep, h]
  exact refuseIf_true _ _ _ (decide_eq_true hout)

theorem writeDataStep_launched_inside {count : Word} {source : BAddr} {s : State} (h : s.eng = .launched)
    (hin : source.toNat + sendCount count s ≤ bmemSize s.par) :
    writeDataStep count source s = goto (if sendCount count s = 0 then .fin .ok else .sendData 0 (sendCount count s)) s := by
  simp only [writeDataStep, h]
  exact refuseIf_false _ _ _ (decide_eq_false (by omega))

/-- Settles O51. -/
theorem writeDataSteps : Obligations.WriteDataSteps := by
  intro s count source
  refine ⟨fun h hout => congrArg Host.Outcome.next (writeDataStep_launched_outside h hout),
    fun h hin => congrArg Host.Outcome.next (writeDataStep_launched_inside h hin), fun i n h => ⟨_, rfl, ?_⟩,
    fun r h => congrArg Host.Outcome.next ?_⟩
  · simp only [writeDataStep, h]; rfl
  · simp only [writeDataStep, h]; rfl

/-! ### WRITE open (R219) -/

theorem ready_eq_false_iff (s : State) : ready s = false ↔ s.family = .unknown := by
  simp [ready]

/-- Settles O53. -/
theorem writeOpenSteps : Obligations.WriteOpenSteps := by
  intro s sector
  refine ⟨fun h hf => congrArg Host.Outcome.next ?_, fun h hf => congrArg Host.Outcome.next ?_, fun h hw => congrArg Host.Outcome.next ?_,
    fun h hw => congrArg Host.Outcome.next ?_, fun h => ⟨_, rfl, ?_⟩, fun h => ⟨_, rfl, ?_⟩, fun r h => ⟨_, rfl, ?_⟩,
    fun r h => congrArg Host.Outcome.next ?_⟩
  all_goals simp only [writeOpenStep, h]
  · exact refuseIf_true _ _ _ (by simp [ready, hf])
  · exact refuseIf_false _ _ _ (by simp [ready, hf])
  · exact refuseIf_true _ _ _ hw
  · rw [refuseIf_false _ _ _ hw, cardAddress_eq]; rfl
  all_goals rfl

/-! ### WRITE close (R220) -/

/-- Settles O55. -/
theorem writeCloseSteps : Obligations.WriteCloseSteps := by
  intro s
  refine ⟨fun h hw => congrArg Host.Outcome.next ?_, fun h hw => congrArg Host.Outcome.next ?_, fun h => ⟨_, rfl, ?_⟩,
    fun b h => ⟨_, rfl, ?_⟩, fun h => ⟨_, rfl, ?_⟩, fun left h => ⟨_, rfl, ?_⟩, fun r h => ⟨_, rfl, ?_⟩,
    fun r h => congrArg Host.Outcome.next ?_⟩
  all_goals simp only [writeCloseStep, h]
  · exact refuseIf_true _ _ _ (by simp [hw])
  · exact refuseIf_false _ _ _ (by simp [hw])
  · rw [closePadStep_eq]; rfl
  · rfl
  · rw [closeRespStep_eq]; rfl
  · rw [closeBusyStep_eq]; rfl
  · rfl
  · rfl

/-! ### At most one exchange a step (R71, R110) -/

/-- Nothing happens on the bus, or one exchange in the current clock mode, of a byte that has the property. -/
def Exchanges (P : Byte → Prop) (s t : State) : Prop :=
  (t.trace = s.trace ∧ t.cardIn = s.cardIn)
    ∨ ∃ csa b, P b ∧ t.trace = ⟨csa, s.fast, b, cardByte s⟩ :: s.trace ∧ t.cardIn = s.cardIn.tail

theorem Exchanges.none {P : Byte → Prop} {s t : State} (ht : t.trace = s.trace) (hc : t.cardIn = s.cardIn) :
    Exchanges P s t :=
  .inl ⟨ht, hc⟩

theorem Exchanges.one {P : Byte → Prop} {s t : State} {csa : Bool} (b : Byte) (hb : P b)
    (ht : t.trace = ⟨csa, s.fast, b, cardByte s⟩ :: s.trace) (hc : t.cardIn = s.cardIn.tail) : Exchanges P s t :=
  .inr ⟨csa, b, hb, ht, hc⟩

theorem Exchanges.mono {P Q : Byte → Prop} {s t : State} (h : Exchanges P s t) (hPQ : ∀ b, P b → Q b) : Exchanges Q s t :=
  h.imp_right fun ⟨csa, b, hb, h⟩ => ⟨csa, b, hPQ b hb, h⟩

theorem frame_getD_min (c : CardCmd) (k : Nat) : c.frame.getD (min k 5) 0 = c.frameByte k := by
  rw [frame_getD (Nat.min_le_right k 5)]
  match k with
  | 0 | 1 | 2 | 3 | 4 => rfl
  | k + 5 => rw [Nat.min_eq_right (by omega)]; rfl

/-- What `send_command(c)` may send at the engine's place. -/
def CommandByte (c : CardCmd) (s : State) (b : Byte) : Prop :=
  b = 0xFF ∨ ∃ ret k, s.eng = .cmd ret c (.byte k) ∧ b = c.frame.getD (min k 5) 0

theorem cardCommandStep_exchanges (c : CardCmd) (s : State) : Exchanges (CommandByte c s) s (cardCommandStep c s) := by
  unfold cardCommandStep
  split
  · next ret c' ph he =>
    split
    · next hc =>
      subst hc
      cases ph with
      | desel | flush => exact .one 0xFF (.inl rfl) rfl rfl
      | sel => exact .none rfl rfl
      | byte k => exact .one (c'.frameByte k) (.inr ⟨ret, k, he, (frame_getD_min c' k).symm⟩) rfl rfl
      | poll left =>
        simp only [sendStep, pollStep]
        split
        · exact .one 0xFF (.inl rfl) rfl rfl
        · split <;> exact .one 0xFF (.inl rfl) rfl rfl
    · exact .none rfl rfl
  · exact .none rfl rfl

/-- A padding or checksum byte 0x00 of `close_write`, or 0xFF. -/
def CloseByte (k : CloseFor) (s : State) (b : Byte) : Prop :=
  b = 0xFF ∨ (b = 0x00 ∧ (BlockInv s → s.wopen = true)
    ∧ ((k = .init ∧ s.eng = .launched) ∨ s.eng = .closePad k ∨ ∃ second, s.eng = .closeCrc k second))

theorem closeByte_pad {k : CloseFor} {s : State} (h : s.eng = .closePad k) : CloseByte k s 0x00 := by
  refine .inr ⟨rfl, fun hinv => ?_, .inr (.inl h)⟩
  have hok := hinv.engine
  simp only [engineOk, h, Bool.and_eq_true] at hok
  exact hok.1.1.1

theorem closeByte_crc {k : CloseFor} {s : State} {second : Bool} (h : s.eng = .closeCrc k second) : CloseByte k s 0x00 := by
  refine .inr ⟨rfl, fun hinv => ?_, .inr (.inr ⟨second, h⟩)⟩
  have hok := hinv.engine
  simp only [engineOk, h, Bool.and_eq_true] at hok
  exact hok.1.1.1

theorem initStep_exchanges (s : State) : Exchanges (CloseByte .init s) s (initStep s) := by
  unfold initStep
  split
  case h_1 he =>
    cases hw : s.wopen
    · rw [initStart_closed hw]; exact .none rfl rfl
    · have h0 : CloseByte .init s 0x00 := .inr ⟨rfl, fun _ => hw, .inl ⟨rfl, he⟩⟩
      rw [initStart_open hw]
      split <;> exact .one 0x00 h0 rfl rfl
  case h_2 he => exact .one 0x00 (closeByte_pad he) rfl rfl
  case h_3 he => exact .one 0x00 (closeByte_crc he) rfl rfl
  case h_7 | h_12 | h_13 | h_14 => exact .none rfl rfl
  case h_10 =>
    unfold rd4Step
    simp only
    split <;> exact .one 0xFF (.inl rfl) rfl rfl
  all_goals exact .one 0xFF (.inl rfl) rfl rfl

theorem writeCloseStep_exchanges (s : State) : Exchanges (CloseByte .op s) s (writeCloseStep s) := by
  unfold writeCloseStep
  split
  case h_1 => rw [refuseIf_frame]; exact .none rfl rfl
  case h_2 he => exact .one 0x00 (closeByte_pad he) rfl rfl
  case h_3 he => exact .one 0x00 (closeByte_crc he) rfl rfl
  case h_7 | h_8 => exact .none rfl rfl
  all_goals exact .one 0xFF (.inl rfl) rfl rfl

theorem readStep_exchanges (sector : Word) (offset count : BitVec 10) (dest : Option BAddr) (s : State) :
    Exchanges (· = 0xFF) s (readStep sector offset count dest s) := by
  unfold readStep
  split
  case h_1 | h_2 | h_3 | h_4 => rw [refuseIf_frame]; exact .none rfl rfl
  case h_6 => rw [packetStep_eq, storeAt_frame]; exact .one 0xFF rfl rfl rfl
  case h_8 | h_9 => exact .none rfl rfl
  all_goals exact .one 0xFF rfl rfl rfl

theorem writeOpenStep_exchanges (sector : Word) (s : State) :
    Exchanges (fun b => b = 0xFF ∨ (b = 0xFE ∧ s.eng = .openToken)) s (writeOpenStep sector s) := by
  unfold writeOpenStep
  split
  case h_1 | h_2 => rw [refuseIf_frame]; exact .none rfl rfl
  case h_4 he => exact .one 0xFE (.inr ⟨rfl, he⟩) rfl rfl
  case h_6 | h_7 => exact .none rfl rfl
  all_goals exact .one 0xFF (.inl rfl) rfl rfl

theorem writeDataStep_exchanges (count : Word) (source : BAddr) (s : State) :
    Exchanges (fun b => ∃ i n, s.eng = .sendData i n ∧ b = memRead s (source.toNat + i)) s
      (writeDataStep count source s) := by
  unfold writeDataStep
  split
  case h_1 => unfold writeDataStart; rw [refuseIf_frame]; exact .none rfl rfl
  case h_2 i n he => exact .one _ ⟨i, n, he, rfl⟩ rfl rfl
  all_goals exact .none rfl rfl

theorem reservedStep_exchanges (P : Byte → Prop) (s : State) : Exchanges P s (reservedStep s) := by
  rw [reservedStep_frame]; exact .none rfl rfl

/-- What R110 lets an engine step of each instruction send, at the place it lists it. -/
def ListedByte (i : Instr) (s : State) (b : Byte) : Prop :=
  (∃ c : CardCmd, i = c.instr ∧ CommandByte c s b)
    ∨ (i = .init ∧ CloseByte .init s b)
    ∨ ((∃ a b c d, i = .read a b c d) ∧ b = 0xFF)
    ∨ ((∃ a b c, i = .readSkip a b c) ∧ b = 0xFF)
    ∨ ((∃ a, i = .writeOpen a) ∧ (b = 0xFF ∨ (b = 0xFE ∧ s.eng = .openToken)))
    ∨ (∃ n a, i = .writeData n a ∧ ∃ j m, s.eng = .sendData j m ∧ b = memRead s (a.toNat + j))
    ∨ (i = .writeClose ∧ CloseByte .op s b)

theorem EngineEffect.exchanges {i : Instr} {s t : State} (h : EngineEffect s i t) : Exchanges (ListedByte i s) s t := by
  cases h with
  | command c => exact (cardCommandStep_exchanges c s).mono fun b hb => .inl ⟨c, rfl, hb⟩
  | init => exact (initStep_exchanges s).mono fun b hb => .inr (.inl ⟨rfl, hb⟩)
  | read a b c d =>
    exact (readStep_exchanges a b c _ s).mono fun _ hb => .inr (.inr (.inl ⟨⟨a, b, c, d, rfl⟩, hb⟩))
  | readSkip a b c =>
    exact (readStep_exchanges a b c _ s).mono fun _ hb => .inr (.inr (.inr (.inl ⟨⟨a, b, c, rfl⟩, hb⟩)))
  | writeOpen a =>
    exact (writeOpenStep_exchanges a s).mono fun _ hb => .inr (.inr (.inr (.inr (.inl ⟨⟨a, rfl⟩, hb⟩))))
  | writeData n a =>
    exact (writeDataStep_exchanges n a s).mono fun _ hb => .inr (.inr (.inr (.inr (.inr (.inl ⟨n, a, rfl, hb⟩)))))
  | writeClose => exact (writeCloseStep_exchanges s).mono fun b hb => .inr (.inr (.inr (.inr (.inr (.inr ⟨rfl, hb⟩)))))
  | reserved => exact reservedStep_exchanges _ s

theorem exec_exchanges {i : Instr} {s t : State} (h : exec i s = .next t) : Exchanges (ListedByte i s) s t := by
  obtain he | he | ⟨-, rfl⟩ := exec_effect h
  · exact .none (congrArg CardPart.trace he.cardPart_eq) (congrArg CardPart.cardIn he.cardPart_eq)
  · exact he.exchanges
  · exact .none (congrArg CardPart.trace (tickStep_cardPart s)) (congrArg CardPart.cardIn (tickStep_cardPart s))

/-- Both bytes of an exchange cross the wire bit by bit, most significant first (R138). -/
theorem exchangeCycles_eq (csa fast : Bool) (out inp : Byte) :
    exchangeCycles ⟨csa, fast, out, inp⟩
      = (List.range 8).map (fun k => ⟨csa, fast, out.getLsbD (7 - k), inp.getLsbD (7 - k)⟩) := rfl

/-- Settles O36: the exchange of each instruction's step, and the clock cycles of any exchange. -/
theorem engineSendsOnlyListedBytes : Obligations.EngineSendsOnlyListedBytes := by
  intro i s t h
  obtain ⟨ht, -⟩ | ⟨csa, b, hb, ht, -⟩ := exec_exchanges h
  · exact .inl ht
  refine .inr ⟨_, ht, rfl, rfl, ?_, shiftIn_exchangeCycles_inp _, ?_⟩
  · rw [wireCycles_cons ht, exchangeCycles_eq]
  · simpa [ListedByte, CommandByte, CloseByte] using hb

end Sys2Proof.Machine

/-! PROOFS. Runs of the engine: what a run exchanges and receives, and `send_command` (R150, R151, R163). -/

namespace Sys2Proof.Machine

/-! ### What a run exchanges -/

/-- `n` engine steps lead from `s` to `t`, exchanging `es`, oldest first. -/
structure Ran (n : Nat) (es : List BusEvent) (s t : State) : Prop where
  run : engineRun n s = .next t
  trace : t.trace = es.reverse ++ s.trace

theorem Ran.refl (s : State) : Ran 0 [] s s := ⟨rfl, rfl⟩

theorem Ran.step {n : Nat} {es fs : List BusEvent} {s t u : State} (h : engineMove s = .next t)
    (ht : t.trace = es.reverse ++ s.trace) (hr : Ran n fs t u) : Ran (n + 1) (es ++ fs) s u where
  run := by rw [engineRun_succ n h, hr.run]
  trace := by rw [hr.trace, ht, List.reverse_append, List.append_assoc]

theorem Ran.trans {m n : Nat} {es fs : List BusEvent} {s t u : State} (h : Ran m es s t) (hr : Ran n fs t u) :
    Ran (m + n) (es ++ fs) s u where
  run := by rw [engineRun_add m n h.run, hr.run]
  trace := by rw [hr.trace, h.trace, List.reverse_append, List.append_assoc]

theorem Ran.newEvents {n : Nat} {es : List BusEvent} {s t : State} (h : Ran n es s t) : newEvents s t = es :=
  newEvents_of_trace es h.trace

theorem engineMove_exchanges {s t : State} (h : engineMove s = .next t) : Exchanges (fun _ => True) s t := by
  obtain rfl | ⟨i, -, he⟩ := engineMove_effect h
  · exact .none rfl rfl
  · exact he.exchanges.mono fun _ _ => trivial

/-- A run receives the bytes the environment lists, as far as it lists them. -/
theorem engineRun_received {n : Nat} {s t : State} (h : engineRun n s = .next t) :
    ∃ es : List BusEvent, t.trace = es.reverse ++ s.trace ∧ t.cardIn = s.cardIn.drop es.length
      ∧ (es.map (fun e => e.inp)).take s.cardIn.length = s.cardIn.take es.length := by
  induction n generalizing s with
  | zero =>
    cases h
    exact ⟨[], rfl, rfl, by simp⟩
  | succ n ih =>
    obtain ⟨u, hu⟩ := engineMove_next s
    rw [engineRun_succ n hu] at h
    obtain ⟨es, htrace, hcard, hbytes⟩ := ih h
    obtain ⟨ht, hc⟩ | ⟨csa, b, -, ht, hc⟩ := engineMove_exchanges hu
    · rw [ht] at htrace
      rw [hc] at hcard hbytes
      exact ⟨es, htrace, hcard, hbytes⟩
    · refine ⟨⟨csa, s.fast, b, cardByte s⟩ :: es, by simp [htrace, ht], ?_, ?_⟩
      · rw [hcard, hc]; simp
      · rw [hc] at hbytes
        cases hs : s.cardIn with
        | nil => rfl
        | cons x xs =>
          have hx : cardByte s = x := by simp [cardByte, hs]
          rw [hs] at hbytes
          simpa [hx] using hbytes

theorem Ran.received {n : Nat} {es : List BusEvent} {s t : State} (h : Ran n es s t) :
    t.cardIn = s.cardIn.drop es.length
      ∧ (es.map (fun e => e.inp)).take s.cardIn.length = s.cardIn.take es.length := by
  obtain ⟨fs, htrace, hcard, hbytes⟩ := engineRun_received h.run
  obtain rfl : es = fs := List.reverse_injective (List.append_cancel_right (h.trace.symm.trans htrace))
  exact ⟨hcard, hbytes⟩

/-! ### `send_command` -/

/-- What sending `c` exchanges when its poll ends with `r` after `k` bytes (R150). -/
structure SendEvents (c : CardCmd) (fast : Bool) (k : Nat) (r : Byte) (es : List BusEvent) : Prop where
  pos : 1 ≤ k
  bound : k ≤ 10
  out : es.map (fun e => e.out) = ([0xFF, 0xFF] : List Byte) ++ c.frame ++ List.replicate k 0xFF
  csa : es.map (fun e => e.csa) = false :: List.replicate (7 + k) true
  fast : ∀ e ∈ es, e.fast = fast
  last : (es.map (fun e => e.inp)).getLast? = some r
  ended : r.getLsbD 7 = false ∨ k = 10
  invalid : ∀ b ∈ ((es.map (fun e => e.inp)).drop 8).dropLast, b.getLsbD 7 = true

theorem SendEvents.length {c : CardCmd} {fast : Bool} {k : Nat} {r : Byte} {es : List BusEvent}
    (h : SendEvents c fast k r es) : es.length = 8 + k := by
  have hl := congrArg List.length h.csa
  simp at hl
  omega

/-- The state after `send_command` returned `r`: the card selected, `LASTR1` written. -/
def commanded (s : State) (es : List BusEvent) (ci : List Byte) (d : Bool) (r : Byte) (p : EnginePos) : State :=
  { s with csa := true, trace := es.reverse ++ s.trace, cardIn := ci, dout := d, lastR1 := r, eng := p }

/-- The two dummy exchanges and the frame of `send_command`, with the bytes received. -/
def prefixEvents (c : CardCmd) (fast : Bool) (i0 i1 i2 i3 i4 i5 i6 i7 : Byte) : List BusEvent :=
  [⟨false, fast, 0xFF, i0⟩, ⟨true, fast, 0xFF, i1⟩, ⟨true, fast, c.frameByte 0, i2⟩, ⟨true, fast, c.frameByte 1, i3⟩,
    ⟨true, fast, c.frameByte 2, i4⟩, ⟨true, fast, c.frameByte 3, i5⟩, ⟨true, fast, c.frameByte 4, i6⟩,
    ⟨true, fast, c.frameByte 5, i7⟩]

/-- The first nine exchanges and a poll make a whole `send_command`. -/
theorem sendEvents_append {c : CardCmd} {fast : Bool} {k : Nat} {r : Byte} {es : List BusEvent}
    (p : PollEvents fast 10 k r es) (i0 i1 i2 i3 i4 i5 i6 i7 : Byte) :
    SendEvents c fast k r (prefixEvents c fast i0 i1 i2 i3 i4 i5 i6 i7 ++ es) := by
  have hlen := p.length
  have hout : es.map (fun e => e.out) = List.replicate k 0xFF :=
    List.eq_replicate_iff.mpr ⟨by simpa using hlen, by simpa using fun e he => (p.events e he).2.1⟩
  have hcsa : es.map (fun e => e.csa) = List.replicate k true :=
    List.eq_replicate_iff.mpr ⟨by simpa using hlen, by simpa using fun e he => (p.events e he).1⟩
  have hne : es ≠ [] := by
    rintro rfl
    have hk := p.pos
    rw [← hlen] at hk
    exact absurd hk (by decide)
  refine ⟨p.pos, p.bound, ?_, ?_, ?_, ?_, p.ended, ?_⟩
  · rw [List.map_append, hout]; rfl
  · rw [List.map_append, hcsa, List.replicate_add]; rfl
  · intro e he
    obtain he | he := List.mem_append.mp he
    · simp only [prefixEvents, List.mem_cons, List.not_mem_nil, or_false] at he
      obtain rfl | rfl | rfl | rfl | rfl | rfl | rfl | rfl := he <;> rfl
    · exact (p.events e he).2.2
  · rw [List.map_append, List.getLast?_append_of_ne_nil _ (by simpa using hne), List.getLast?_map]
    exact p.last
  · intro b hb
    rw [List.map_append, List.drop_left' (by rfl), ← List.map_dropLast] at hb
    obtain ⟨e, he, rfl⟩ := List.mem_map.mp hb
    exact p.invalid e he

theorem send_prefix_run {s : State} {ret : Ret} {c : CardCmd} (he : s.eng = .cmd ret c .desel) :
    ∃ i0 i1 i2 i3 i4 i5 i6 i7 ci d, engineRun 9 s = .next
      (sending s (prefixEvents c s.fast i0 i1 i2 i3 i4 i5 i6 i7).reverse ci d (.cmd ret c (.poll 9))) :=
  send_prefix s ret c he

/-- `send_command` from its start: its first nine exchanges and the poll. -/
theorem send_run {s : State} {ret : Ret} {c : CardCmd} (he : s.eng = .cmd ret c .desel) :
    ∃ (k : Nat) (r : Byte) (es : List BusEvent) (ci : List Byte) (d : Bool), SendEvents c s.fast k r es
      ∧ Ran (9 + k) es s (commanded s es ci d r (returned s.par ret r)) := by
  obtain ⟨i0, i1, i2, i3, i4, i5, i6, i7, ci, d, hpre⟩ := send_prefix_run he
  generalize hes : prefixEvents c s.fast i0 i1 i2 i3 i4 i5 i6 i7 = pre at hpre
  obtain ⟨k, r, es, t, p, hpoll, ht⟩ :=
    poll_run ret c 9 (sending s pre.reverse ci d (.cmd ret c (.poll 9))) rfl rfl
  refine ⟨k, r, pre ++ es, t.cardIn, t.dout, hes ▸ sendEvents_append p i0 i1 i2 i3 i4 i5 i6 i7, ?_, rfl⟩
  rw [engineRun_add 9 k hpre, hpoll, ht]
  simp [sending, commanded]

/-- Settles O38. -/
theorem sendCommandReturnsWithinItsCeiling : Obligations.SendCommandReturnsWithinItsCeiling := by
  intro s ret c he
  obtain ⟨k, r, es, ci, d, h, hran⟩ := send_run he
  refine ⟨k, r, _, h.pos, h.bound, hran.run, ?_, ?_, ?_, h.ended, ?_, rfl⟩
  · rw [sentBytes, hran.newEvents, h.out]
  · rw [hran.newEvents, h.csa]
  · rw [receivedBytes, hran.newEvents, h.last]
  · rw [receivedBytes, hran.newEvents]; exact h.invalid

theorem SendEvents.getD_last {c : CardCmd} {fast : Bool} {k : Nat} {r : Byte} {es : List BusEvent}
    (h : SendEvents c fast k r es) (fs : List BusEvent) : ((es ++ fs).map (fun e => e.inp)).getD (7 + k) 0 = r := by
  have hlen := h.length
  have hpos := h.pos
  have hlast := h.last
  rw [List.getLast?_eq_getElem?, List.length_map, hlen] at hlast
  rw [List.map_append, List.getD_eq_getElem?_getD, List.getElem?_append_left (by simp [hlen]),
    show 7 + k = 8 + k - 1 by omega, hlast]
  rfl

/-- Settles O39: CMD55's `send_command`, which returns to the caller, or ACMD41's after it. -/
theorem applicationCommandFollowsItsLeadingCommand : Obligations.ApplicationCommandFollowsItsLeadingCommand := by
  intro s k hcs he
  obtain ⟨k1, r1, es1, ci1, d1, h1, hran1⟩ := send_run (ret := .lead hcs k) (c := .cmd55) he
  cases ha : appAbort r1 with
  | true =>
    have hret : returned s.par (.lead hcs k) r1 = resume s.par k r1 := if_pos ha
    rw [hret] at hran1
    refine ⟨k1, _, _, h1.pos, h1.bound, hran1.run, rfl, .inl ⟨?_, of_decide_eq_true ha⟩⟩
    rw [sentBytes, hran1.newEvents, h1.out]
  | false =>
    have hret : returned s.par (.lead hcs k) r1 = .cmd (.plain k) (.acmd41 hcs) .desel := if_neg (by simp [ha])
    rw [hret] at hran1
    obtain ⟨k2, r2, es2, ci2, d2, h2, hran2⟩ := send_run (s := commanded s es1 ci1 d1 r1 _) (ret := .plain k)
      (c := .acmd41 hcs) rfl
    have hran := hran1.trans hran2
    refine ⟨k1, _, _, h1.pos, h1.bound, hran.run, rfl, .inr ⟨k2, h2.pos, h2.bound, ?_, ?_⟩⟩
    · rw [sentBytes, hran.newEvents, List.map_append, h1.out, h2.out]
    · rw [receivedBytes, hran.newEvents, h1.getD_last]
      simpa [appAbort] using ha

end Sys2Proof.Machine

/-! PROOFS. Runs of READ's refusals (R212), the trailing word (R162), and the runs of WRITE data and WRITE open (R218,
R219). -/

namespace Sys2Proof.Machine

/-! ### Composing runs -/

/-- A step without bus traffic, before a run. -/
theorem Ran.silent {n : Nat} {es : List BusEvent} {s t u : State} (h : engineMove s = .next t) (ht : t.trace = s.trace)
    (hr : Ran n es t u) : Ran (n + 1) es s u :=
  .step (es := []) h ht hr

/-- A step with one exchange, before a run. -/
theorem Ran.exchange {n : Nat} {e : BusEvent} {es : List BusEvent} {s t u : State} (h : engineMove s = .next t)
    (ht : t.trace = e :: s.trace) (hr : Ran n es t u) : Ran (n + 1) (e :: es) s u :=
  .step (es := [e]) h ht hr

theorem Ran.thenSilent {n : Nat} {es : List BusEvent} {s t u : State} (hr : Ran n es s t) (h : engineMove t = .next u)
    (ht : u.trace = t.trace) : Ran (n + 1) es s u := by
  simpa using hr.trans (.silent h ht (.refl u))

/-- A refusal check that passes, after a run. -/
theorem Ran.checked {n : Nat} {es : List BusEvent} {s t : State} {c : Bool} {r : Result} {p : EnginePos} (hr : Ran n es s t)
    (h : engineMove t = .next (refuseIf c r p t)) (hc : c = false) : Ran (n + 1) es s (goto p t) :=
  hr.thenSilent (h.trans (congrArg _ (refuseIf_false r p t hc))) rfl

/-- A refusal check that fails, after a run. -/
theorem Ran.refused {n : Nat} {es : List BusEvent} {s t : State} {c : Bool} {r : Result} {p : EnginePos} (hr : Ran n es s t)
    (h : engineMove t = .next (refuseIf c r p t)) (hc : c = true) : Ran (n + 1) es s (finish r t) :=
  hr.thenSilent (h.trans (congrArg _ (refuseIf_true r p t hc))) rfl

theorem Ran.sentBytes {n : Nat} {es : List BusEvent} {s t : State} (h : Ran n es s t) :
    sentBytes s t = es.map (fun e => e.out) := by
  rw [Machine.sentBytes, h.newEvents]

theorem Ran.receivedBytes {n : Nat} {es : List BusEvent} {s t : State} (h : Ran n es s t) :
    receivedBytes s t = es.map (fun e => e.inp) := by
  rw [Machine.receivedBytes, h.newEvents]

/-! ### The trailing word (R162) -/

/-- The word `rd4` assembles, and where it leads. -/
def afterWord (p : Params) (k : WordFor) (w : Word) : EnginePos :=
  match k with
  | .echo => afterEcho p w
  | .ocr => afterOcr w

theorem rd4Step_zero (k : WordFor) (acc : Word) (s : State) :
    rd4Step k 0 acc s = goto (afterWord s.par k (acc.extractLsb' 0 24 ++ cardByte s))
      { rcv s with ocr := acc.extractLsb' 0 24 ++ cardByte s } := by
  cases k
  · exact rd4Step_echo acc s
  · exact rd4Step_ocr acc s

theorem engineMove_rd4 {s : State} {k : WordFor} {left : Nat} {acc : Word} (hl : s.latch.op = 1)
    (he : s.eng = .rd4 k left acc) : engineMove s = .next (rd4Step k left acc s) := by
  rw [engineMove_init s hl (by simp [he]) (by simp [he])]
  simp only [initStep, he]

theorem toNat_append_eq {n m : Nat} (x : BitVec n) (y : BitVec m) : (x ++ y).toNat = x.toNat * 2 ^ m + y.toNat := by
  rw [BitVec.toNat_append, ← Nat.shiftLeft_add_eq_or_of_lt y.isLt, Nat.shiftLeft_eq]

/-- Four bytes shifted in one after the other. -/
theorem shiftIn_four (b0 b1 b2 b3 : Byte) :
    ((((0 : Word).extractLsb' 0 24 ++ b0 : Word).extractLsb' 0 24 ++ b1 : Word).extractLsb' 0 24 ++ b2 : Word).extractLsb' 0 24 ++ b3
      = (b0 ++ b1 ++ b2 ++ b3 : Word) := by
  refine BitVec.eq_of_toNat_eq ?_
  simp only [toNat_append_eq, BitVec.extractLsb'_toNat, Nat.shiftRight_zero]
  omega

/-- A byte shifted into the word, most significant first. -/
def shiftByteIn (acc : Word) (b : Byte) : Word := acc.extractLsb' 0 24 ++ b

/-- The state after `es`, with the word `rd4` read in `OCR`. -/
def wordRead (s : State) (es : List BusEvent) (ci : List Byte) (d : Bool) (k : WordFor) (w : Word) : State :=
  { s with trace := es.reverse ++ s.trace, cardIn := ci, dout := d, ocr := w, eng := afterWord s.par k w }

theorem shiftIn_run {s : State} {k : WordFor} {left : Nat} {acc : Word} (hl : s.latch.op = 1)
    (he : s.eng = .rd4 k left acc) :
    ∃ (bs : List Byte) (es : List BusEvent) (ci : List Byte) (d : Bool), bs.length = left + 1
      ∧ es = bs.map (fun b => ⟨s.csa, s.fast, 0xFF, b⟩)
      ∧ Ran (left + 1) es s (wordRead s es ci d k (bs.foldl shiftByteIn acc)) := by
  induction left generalizing s acc with
  | zero =>
    refine ⟨[cardByte s], _, s.cardIn.tail, (rcv s).dout, rfl, rfl, .exchange ?_ rfl (.refl _)⟩
    rw [engineMove_rd4 hl he, rd4Step_zero]
    rfl
  | succ n ih =>
    obtain ⟨bs, es, ci, d, hlen, hes, hran⟩ := ih (s := goto (.rd4 k n (shiftByteIn acc (cardByte s))) (rcv s)) hl rfl
    refine ⟨cardByte s :: bs, ⟨s.csa, s.fast, 0xFF, cardByte s⟩ :: es, ci, d, by simp [hlen], by rw [hes]; rfl, ?_⟩
    rw [wordRead, List.reverse_cons, List.append_assoc]
    exact .exchange (by rw [engineMove_rd4 hl he, rd4Step_succ]; rfl) rfl hran

theorem rd4_run {s : State} {k : WordFor} (hl : s.latch.op = 1) (he : s.eng = .rd4 k 3 0) :
    ∃ (b0 b1 b2 b3 : Byte) (es : List BusEvent) (ci : List Byte) (d : Bool),
      es = [⟨s.csa, s.fast, 0xFF, b0⟩, ⟨s.csa, s.fast, 0xFF, b1⟩, ⟨s.csa, s.fast, 0xFF, b2⟩, ⟨s.csa, s.fast, 0xFF, b3⟩]
      ∧ Ran 4 es s (wordRead s es ci d k (b0 ++ b1 ++ b2 ++ b3)) := by
  obtain ⟨bs, es, ci, d, hlen, hes, hran⟩ := shiftIn_run hl he
  obtain ⟨b0, b1, b2, b3, rfl⟩ : ∃ b0 b1 b2 b3, bs = [b0, b1, b2, b3] := by
    match bs, hlen with
    | [b0, b1, b2, b3], _ => exact ⟨b0, b1, b2, b3, rfl⟩
  exact ⟨b0, b1, b2, b3, es, ci, d, hes, shiftIn_four b0 b1 b2 b3 ▸ hran⟩

/-- Settles O40. -/
theorem trailingWordRead : Obligations.TrailingWordRead := by
  intro s k hl he
  obtain ⟨b0, b1, b2, b3, es, ci, d, rfl, hran⟩ := rd4_run hl he
  refine ⟨b0, b1, b2, b3, _, hran.run, hran.newEvents, ?_⟩
  cases k <;> rfl

/-! ### READ's refusals (R212) -/

/-- READ's destination: the latched address when `DEN` is 1. -/
def readDest (l : Latches) : Option BAddr := if l.den then some l.addr else none

section Refusals

variable {s : State} (hl : s.latch.op = 2)
include hl

theorem engineMove_readLaunched (he : s.eng = .launched) :
    engineMove s = .next (refuseIf (!ready s) .notRdy .readCheckOpen s) := by
  rw [engineMove_read s hl (by simp [he]) (by simp [he])]
  simp only [readStep, he]

theorem engineMove_readCheckOpen (he : s.eng = .readCheckOpen) :
    engineMove s = .next (refuseIf s.wopen .parErr .readCheckSum s) := by
  rw [engineMove_read s hl (by simp [he]) (by simp [he])]
  simp only [readStep, he]

theorem engineMove_readCheckSum (he : s.eng = .readCheckSum) :
    engineMove s = .next
      (refuseIf (decide (512 < s.latch.off.toNat + s.latch.cnt.toNat)) .parErr .readCheckRange s) := by
  rw [engineMove_read s hl (by simp [he]) (by simp [he])]
  simp only [readStep, he]
  rfl

theorem engineMove_readCheckRange (he : s.eng = .readCheckRange) :
    engineMove s = .next (refuseIf (s.latch.den && decide (bmemSize s.par < s.latch.addr.toNat + s.latch.cnt.toNat)) .parErr
      (.cmd (.plain .read) (.cmd17 (cardAddress s.block s.latch.arg0)) .desel) s) := by
  rw [engineMove_read s hl (by simp [he]) (by simp [he])]
  simp only [readStep, he]
  cases s.latch.den <;> rfl

variable (he : s.eng = .launched)
include he

theorem read_checkOpen_run (hf : s.family ≠ .unknown) : Ran 1 [] s (goto .readCheckOpen s) :=
  (Ran.refl s).checked (engineMove_readLaunched hl he) (by simpa [ready] using hf)

theorem read_checkSum_run (hf : s.family ≠ .unknown) (hw : s.wopen = false) : Ran 2 [] s (goto .readCheckSum s) :=
  (read_checkOpen_run hl he hf).checked (engineMove_readCheckOpen (s := goto _ s) hl rfl) hw

theorem read_checkRange_run (hf : s.family ≠ .unknown) (hw : s.wopen = false)
    (hsum : s.latch.off.toNat + s.latch.cnt.toNat ≤ 512) : Ran 3 [] s (goto .readCheckRange s) :=
  (read_checkSum_run hl he hf hw).checked (engineMove_readCheckSum (s := goto _ s) hl rfl)
    (decide_eq_false (Nat.not_lt.mpr hsum))

/-- A READ that passes its checks comes to CMD17 without bus traffic. -/
theorem read_checked_run (hf : s.family ≠ .unknown) (hw : s.wopen = false)
    (hsum : s.latch.off.toNat + s.latch.cnt.toNat ≤ 512)
    (hin : s.latch.den = true → s.latch.addr.toNat + s.latch.cnt.toNat ≤ bmemSize s.par) :
    Ran 4 [] s (goto (.cmd (.plain .read) (.cmd17 (cardAddress s.block s.latch.arg0)) .desel) s) :=
  (read_checkRange_run hl he hf hw hsum).checked (engineMove_readCheckRange (s := goto _ s) hl rfl)
    (Bool.and_eq_false_imp.mpr fun hd => decide_eq_false (Nat.not_lt.mpr (hin hd)))

end Refusals

/-- Settles O48: the checks passed, then the one that fails. -/
theorem readRefusesInOrder : Obligations.ReadRefusesInOrder := by
  intro s he hl
  refine ⟨fun hf => ?_, fun hf hw => ?_, fun hf hw hsum => ?_, fun hf hw hsum hd hout => ?_, fun hf hw hsum hin => ?_⟩
  · exact ((Ran.refl s).refused (engineMove_readLaunched hl he) (by simp [ready, hf])).run
  · exact ((read_checkOpen_run hl he hf).refused (engineMove_readCheckOpen (s := goto _ s) hl rfl) hw).run
  · exact ((read_checkSum_run hl he hf hw).refused (engineMove_readCheckSum (s := goto _ s) hl rfl) (decide_eq_true hsum)).run
  · exact ((read_checkRange_run hl he hf hw hsum).refused (engineMove_readCheckRange (s := goto _ s) hl rfl)
      (Bool.and_eq_true_iff.mpr ⟨hd, decide_eq_true hout⟩)).run
  · rw [(read_checked_run hl he hf hw hsum hin).run, cardAddress_eq]; rfl

/-! ### WRITE data (R218) -/

theorem engineMove_sendData {s : State} {i n : Nat} (hl : s.latch.op = 3) (hd : s.latch.den = true)
    (he : s.eng = .sendData i n) :
    engineMove s = .next (goto (if i + 1 < n then .sendData (i + 1) n else .fin .ok)
      { xchg (memRead s (s.latch.addr.toNat + i)) s with wcur := s.wcur - 1 }) := by
  rw [engineMove_writeData s hl hd (by simp [he]) (by simp [he])]
  simp only [writeDataStep, he]
  rfl

/-- The state after `es`, `k` source bytes sent. -/
def dataSent (s : State) (es : List BusEvent) (ci : List Byte) (d : Bool) (k : Nat) : State :=
  { s with trace := es.reverse ++ s.trace, cardIn := ci, dout := d, wcur := s.wcur - BitVec.ofNat 10 k, eng := .fin .ok }

theorem sendData_run {s : State} {i k : Nat} (hl : s.latch.op = 3) (hd : s.latch.den = true)
    (he : s.eng = .sendData i (i + k + 1)) :
    ∃ (es : List BusEvent) (ci : List Byte) (d : Bool),
      es.map (fun e => e.out) = (List.range' i (k + 1)).map (fun j => memRead s (s.latch.addr.toNat + j))
      ∧ Ran (k + 1) es s (dataSent s es ci d (k + 1)) := by
  induction k generalizing s i with
  | zero =>
    have hm := engineMove_sendData hl hd he
    rw [if_neg (by omega)] at hm
    exact ⟨[⟨s.csa, s.fast, _, cardByte s⟩], s.cardIn.tail, _, rfl, .exchange hm rfl (.refl _)⟩
  | succ k ih =>
    have hm := engineMove_sendData hl hd he
    rw [if_pos (by omega)] at hm
    obtain ⟨es, ci, d, hout, hran⟩ := ih (i := i + 1) (s := goto (.sendData (i + 1) (i + (k + 1) + 1))
      { xchg (memRead s (s.latch.addr.toNat + i)) s with wcur := s.wcur - 1 }) hl hd (by rw [show i + 1 + k + 1 = i + (k + 1) + 1 by omega]; rfl)
    refine ⟨⟨s.csa, s.fast, memRead s (s.latch.addr.toNat + i), cardByte s⟩ :: es, ci, d, ?_, ?_⟩
    · rw [List.map_cons, hout]; rfl
    · have hw : s.wcur - BitVec.ofNat 10 (k + 1 + 1) = s.wcur - 1 - BitVec.ofNat 10 (k + 1) := by
        rw [BitVec.ofNat_add, sub_sub, add_comm]; rfl
      rw [dataSent, List.reverse_cons, List.append_assoc, hw]
      exact .exchange hm rfl hran

theorem toNat_sub_ofNat {w : BitVec 10} {n : Nat} (h : n ≤ w.toNat) : (w - BitVec.ofNat 10 n).toNat = w.toNat - n := by
  have hn : (BitVec.ofNat 10 n).toNat = n := Nat.mod_eq_of_lt (Nat.lt_of_le_of_lt h w.isLt)
  rw [BitVec.toNat_sub_of_le (by rw [BitVec.le_def, hn]; exact h), hn]

/-- A WRITE data inside block memory, up to its end. -/
theorem writeData_run {s : State} (he : s.eng = .launched) (hl : s.latch.op = 3) (hd : s.latch.den = true)
    (hin : s.latch.addr.toNat + sendCount s.latch.arg0 s ≤ bmemSize s.par) :
    ∃ (k : Nat) (es : List BusEvent) (ci : List Byte) (d : Bool),
      es.map (fun e => e.out)
        = (List.range (sendCount s.latch.arg0 s)).map (fun i => memRead s (s.latch.addr.toNat + i))
      ∧ Ran k es s (dataSent s es ci d (sendCount s.latch.arg0 s)) := by
  have hm := engineMove_writeData s hl hd (by simp [he]) (by simp [he])
  rw [writeDataStep_launched_inside he hin] at hm
  generalize sendCount s.latch.arg0 s = n at hm
  cases n with
  | zero =>
    refine ⟨1, [], s.cardIn, s.dout, rfl, ?_⟩
    rw [dataSent, show s.wcur - BitVec.ofNat 10 0 = s.wcur from sub_zero _]
    exact .silent hm rfl (.refl _)
  | succ n =>
    obtain ⟨es, ci, d, hout, hran⟩ := sendData_run (s := goto (.sendData 0 (n + 1)) s) (i := 0) (k := n) hl hd
      (by rw [Nat.zero_add]; rfl)
    exact ⟨_, es, ci, d, by rw [hout, List.range_eq_range']; rfl, .silent hm rfl hran⟩

/-- Settles O52. -/
theorem writeDataSendsItsSourceBytes : Obligations.WriteDataSendsItsSourceBytes := by
  intro s he hl hd hin
  obtain ⟨k, es, ci, d, hout, hran⟩ := writeData_run he hl hd hin
  have hend := engineMove_writeData (dataSent s es ci d (sendCount s.latch.arg0 s)) hl hd (by simp [dataSent])
    (by simp [dataSent])
  have h := hran.thenSilent (u := finish .ok (dataSent s es ci d (sendCount s.latch.arg0 s))) hend rfl
  exact ⟨_, _, _, rfl, h.run, h.sentBytes.trans hout, toNat_sub_ofNat (Nat.min_le_right _ _), rfl⟩

/-! ### WRITE open (R219) -/

section WriteOpen

variable {s : State} (hl : s.latch.op = 3) (hd : s.latch.den = false) (ha : s.latch.arg0 ≠ 0)
include hl hd ha

theorem engineMove_openLaunched (he : s.eng = .launched) :
    engineMove s = .next (refuseIf (!ready s) .notRdy .openCheck s) := by
  rw [engineMove_writeOpen s hl hd ha (by simp [he]) (by simp [he])]
  simp only [writeOpenStep, he]

theorem engineMove_openCheck (he : s.eng = .openCheck) :
    engineMove s = .next (refuseIf s.wopen .parErr
      (.cmd (.plain .writeOpen) (.cmd24 (cardAddress s.block s.latch.arg0)) .desel) s) := by
  rw [engineMove_writeOpen s hl hd ha (by simp [he]) (by simp [he])]
  simp only [writeOpenStep, he]
  rfl

theorem engineMove_gap (he : s.eng = .gap) : engineMove s = .next (goto .openToken (rcv s)) := by
  rw [engineMove_writeOpen s hl hd ha (by simp [he]) (by simp [he])]
  simp only [writeOpenStep, he]
  rfl

theorem engineMove_openToken (he : s.eng = .openToken) :
    engineMove s = .next (goto (.fin .ok) { xchg 0xFE s with wcur := 512, wopen := true }) := by
  rw [engineMove_writeOpen s hl hd ha (by simp [he]) (by simp [he])]
  simp only [writeOpenStep, he]
  rfl

theorem engineMove_openDesel {r : Result} (he : s.eng = .desel r) : engineMove s = .next (goto (.fin r) (deselect s)) := by
  rw [engineMove_writeOpen s hl hd ha (by simp [he]) (by simp [he])]
  simp only [writeOpenStep, he]
  rfl

theorem engineMove_openFin {r : Result} (he : s.eng = .fin r) : engineMove s = .next (finish r s) := by
  rw [engineMove_writeOpen s hl hd ha (by simp [he]) (by simp [he])]
  simp only [writeOpenStep, he]

/-- The state of a stream just opened, `es` later. -/
def opened (s : State) (es : List BusEvent) (ci : List Byte) (d : Bool) : State :=
  { s with trace := es.reverse ++ s.trace, cardIn := ci, dout := d, wcur := 512, wopen := true, result := .ok, eng := .idle }

theorem open_token_run (he : s.eng = .openToken) :
    ∃ (b : Byte) (ci : List Byte) (d : Bool),
      Ran 2 [⟨s.csa, s.fast, 0xFE, b⟩] s (opened s [⟨s.csa, s.fast, 0xFE, b⟩] ci d) := by
  refine ⟨cardByte s, s.cardIn.tail, (xchg 0xFE s).dout, .exchange (engineMove_openToken hl hd ha he) rfl ?_⟩
  exact .silent (engineMove_openFin (s := goto (.fin .ok) { xchg 0xFE s with wcur := 512, wopen := true }) hl hd ha rfl) rfl
    (.refl _)

theorem open_accepted_run (he : s.eng = .gap) : ∃ (b0 b1 : Byte) (es : List BusEvent) (ci : List Byte) (d : Bool),
    es = [⟨s.csa, s.fast, 0xFF, b0⟩, ⟨s.csa, s.fast, 0xFE, b1⟩] ∧ Ran 3 es s (opened s es ci d) := by
  obtain ⟨b1, ci, d, h⟩ := open_token_run (s := goto .openToken (rcv s)) hl hd ha rfl
  exact ⟨cardByte s, b1, _, ci, d, rfl, .exchange (engineMove_gap hl hd ha he) rfl h⟩

theorem open_refused_run {r : Result} (he : s.eng = .desel r) :
    ∃ (b : Byte) (es : List BusEvent) (ci : List Byte) (d : Bool), es = [⟨false, s.fast, 0xFF, b⟩]
      ∧ Ran 2 es s { s with trace := es.reverse ++ s.trace, cardIn := ci, dout := d, csa := false, result := r,
                            eng := .idle } :=
  ⟨cardByte s, _, s.cardIn.tail, (deselect s).dout, rfl, .exchange (engineMove_openDesel hl hd ha he) rfl
    (.silent (engineMove_openFin (s := goto (.fin r) (deselect s)) hl hd ha rfl) rfl (.refl _))⟩

end WriteOpen

/-- Settles O54: the checks, `send_command`, and what follows each response. -/
theorem writeOpenOpensOrFails : Obligations.WriteOpenOpensOrFails := by
  intro s he hl hd ha hf hw
  have hchecked : Ran 2 [] s (goto (.cmd (.plain .writeOpen) (.cmd24 (cardAddress s.block s.latch.arg0)) .desel) s) :=
    ((Ran.refl s).checked (engineMove_openLaunched hl hd ha he) (by simpa [ready] using hf)).checked
      (engineMove_openCheck (s := goto _ s) hl hd ha rfl) hw
  obtain ⟨k, r, es, ci, d, h, hsend⟩ := send_run (s := goto _ s) (ret := .plain .writeOpen)
    (c := .cmd24 (cardAddress s.block s.latch.arg0)) rfl
  have hran := hchecked.trans hsend
  rw [List.nil_append] at hran
  by_cases hr : r = 0x00
  · have hgap : returned s.par (.plain .writeOpen) r = .gap := if_pos (decide_eq_true hr)
    obtain ⟨b0, b1, fs, ci', d', hfs, hend⟩ := open_accepted_run (s := commanded _ es ci d r _) hl hd ha hgap
    have hall := hran.trans hend
    refine ⟨k, _, _, h.pos, h.bound, hall.run, .inl ⟨rfl, hr, rfl, rfl, rfl, ?_⟩, rfl⟩
    rw [hall.sentBytes, List.map_append, h.out, hfs]
    rfl
  · have hdesel : returned s.par (.plain .writeOpen) r = .desel .error := if_neg (by simpa [readyR1] using hr)
    obtain ⟨b, fs, ci', d', hfs, hend⟩ := open_refused_run (s := commanded _ es ci d r _) hl hd ha hdesel
    have hall := hran.trans hend
    refine ⟨k, _, _, h.pos, h.bound, hall.run, .inr ⟨rfl, hr, rfl, hw, rfl, ?_⟩, rfl⟩
    rw [hall.sentBytes, List.map_append, h.out, hfs]
    rfl

end Sys2Proof.Machine

/-! PROOFS. Runs of `close_write` (R220), from WRITE close and from INIT's step 0 (R181). -/

namespace Sys2Proof.Machine

/-! ### Runs that keep a property at every step -/

/-- A run all of whose states after the first have the property. -/
structure RanIn (P : State → Prop) (n : Nat) (es : List BusEvent) (s t : State) : Prop where
  ran : Ran n es s t
  through : ∀ (j : Nat) (u : State), 1 ≤ j → j ≤ n → engineRun j s = .next u → P u

theorem RanIn.refl (P : State → Prop) (s : State) : RanIn P 0 [] s s :=
  ⟨.refl s, fun j u h1 h0 _ => absurd h1 (by omega)⟩

theorem RanIn.exchange {P : State → Prop} {n : Nat} {e : BusEvent} {es : List BusEvent} {s t u : State}
    (h : engineMove s = .next t) (ht : t.trace = e :: s.trace) (hp : P t) (hr : RanIn P n es t u) :
    RanIn P (n + 1) (e :: es) s u where
  ran := .exchange h ht hr.ran
  through := fun j v h1 hj hv => by
    obtain ⟨i, rfl⟩ := Nat.exists_eq_add_of_le' h1
    rw [engineRun_succ i h] at hv
    cases i with
    | zero => exact Host.Outcome.next.inj hv ▸ hp
    | succ i => exact hr.through (i + 1) v (by omega) (by omega) hv

/-! ### The steps of a close -/

/-- The latched operation is the one that runs this close. -/
def Closes (k : CloseFor) (l : Latches) : Prop :=
  match k with
  | .op => l.op = 3 ∧ l.den = false ∧ l.arg0 = 0
  | .init => l.op = 1

section Steps

variable {k : CloseFor} {s : State} (hk : Closes k s.latch)
include hk

/-- Inside a close, both owners take the same step. -/
theorem engineMove_closing {t : State} (h1 : s.eng ≠ .idle) (h2 : ∀ r c p, s.eng ≠ .cmd r c p)
    (hop : k = .op → writeCloseStep s = t) (hinit : k = .init → initStep s = t) : engineMove s = .next t := by
  cases k with
  | op =>
    obtain ⟨hl, hd, ha⟩ := hk
    rw [engineMove_writeClose s hl hd ha h1 h2, hop rfl]
  | init => rw [engineMove_init s hk h1 h2, hinit rfl]

theorem engineMove_closePad (he : s.eng = .closePad k) : engineMove s = .next (closePadStep k s) :=
  engineMove_closing hk (by simp [he]) (by simp [he]) (fun h => by subst h; simp only [writeCloseStep, he])
    (fun h => by subst h; simp only [initStep, he])

theorem engineMove_closeCrc {second : Bool} (he : s.eng = .closeCrc k second) :
    engineMove s = .next (closeCrcStep k second s) :=
  engineMove_closing hk (by simp [he]) (by simp [he]) (fun h => by subst h; simp only [writeCloseStep, he])
    (fun h => by subst h; simp only [initStep, he])

theorem engineMove_closeResp (he : s.eng = .closeResp k) : engineMove s = .next (closeRespStep k s) :=
  engineMove_closing hk (by simp [he]) (by simp [he]) (fun h => by subst h; simp only [writeCloseStep, he])
    (fun h => by subst h; simp only [initStep, he])

theorem engineMove_closeBusy {left : Nat} (he : s.eng = .closeBusy k left) : engineMove s = .next (closeBusyStep k left s) :=
  engineMove_closing hk (by simp [he]) (by simp [he]) (fun h => by subst h; simp only [writeCloseStep, he])
    (fun h => by subst h; simp only [initStep, he])

theorem engineMove_closeDesel {r : Result} (he : s.eng = .closeDesel k r) : engineMove s = .next (closeDeselStep k r s) :=
  engineMove_closing hk (by simp [he]) (by simp [he]) (fun h => by subst h; simp only [writeCloseStep, he])
    (fun h => by subst h; simp only [initStep, he])

end Steps

/-! ### The run of a close -/

/-- An exchange in the modes of `s`. -/
def event (s : State) (out inp : Byte) : BusEvent := ⟨s.csa, s.fast, out, inp⟩

/-- Where a close that ended with `r` leads. -/
def afterClose (k : CloseFor) (r : Result) : EnginePos :=
  match k with
  | .op => .fin r
  | .init => .initTinit

/-- The state after the rest of a close, `es` later. -/
def closed (s : State) (es : List BusEvent) (ci : List Byte) (d : Bool) (p : EnginePos) : State :=
  { s with wopen := false, csa := false, trace := es.reverse ++ s.trace, cardIn := ci, dout := d, eng := p }

/-- The rest of a close exchanges `es` and keeps the family. -/
def CloseRest (k : CloseFor) (r : Result) (es : List BusEvent) (s : State) : Prop :=
  ∃ (ci : List Byte) (d : Bool), RanIn (fun u => u.family = s.family) es.length es s
    (closed { s with wcur := 0 } es ci d (afterClose k r))

/-- A busy wait of at most `n` bytes that ended with `r` (R107, R220). -/
structure BusyBytes (n : Nat) (r : Result) (bs : List Byte) : Prop where
  nonempty : bs ≠ []
  bound : bs.length ≤ n
  waiting : ∀ b ∈ bs.dropLast, b ≠ 0xFF
  ended : (bs.getLast? = some 0xFF ∧ r = .ok) ∨ (bs.length = n ∧ bs.getLast? ≠ some 0xFF ∧ r = .error)

theorem BusyBytes.found (n : Nat) : BusyBytes (n + 1) .ok [0xFF] :=
  ⟨by simp, by simp, by simp, .inl ⟨rfl, rfl⟩⟩

theorem BusyBytes.timeout {b : Byte} (hb : b ≠ 0xFF) : BusyBytes 1 .error [b] :=
  ⟨by simp, by simp, by simp, .inr ⟨rfl, by simpa using hb, rfl⟩⟩

theorem BusyBytes.cons {n : Nat} {r : Result} {b : Byte} {bs : List Byte} (hb : b ≠ 0xFF) (h : BusyBytes n r bs) :
    BusyBytes (n + 1) r (b :: bs) where
  nonempty := List.cons_ne_nil b bs
  bound := Nat.succ_le_succ h.bound
  waiting := by
    rw [List.dropLast_cons_of_ne_nil h.nonempty]
    exact List.forall_mem_cons.mpr ⟨hb, h.waiting⟩
  ended := by
    rw [List.getLast?_cons_of_ne_nil h.nonempty]
    exact h.ended.imp_right (And.imp_left (congrArg Nat.succ))

/-- The events of a close: the padding and checksum bytes, the data response, the busy bytes, the deselect. -/
def closeEvents (s : State) (zs : List Byte) (d : Byte) (bs : List Byte) (last : Byte) : List BusEvent :=
  zs.map (event s 0x00) ++ ((d :: bs).map (event s 0xFF) ++ [⟨false, s.fast, 0xFF, last⟩])

theorem closeEvents_out (s : State) (zs : List Byte) (d : Byte) (bs : List Byte) (last : Byte) :
    (closeEvents s zs d bs last).map (fun e => e.out)
      = List.replicate zs.length 0x00 ++ List.replicate (1 + bs.length + 1) 0xFF := by
  have h (b : Byte) (l : List Byte) : (l.map (event s b)).map (fun e => e.out) = List.replicate l.length b := by
    rw [List.map_map]
    exact List.map_const'
  rw [closeEvents, List.map_append, List.map_append, h, h, List.replicate_succ', Nat.add_comm 1]
  rfl

theorem closeEvents_inp (s : State) (zs : List Byte) (d : Byte) (bs : List Byte) (last : Byte) :
    (closeEvents s zs d bs last).map (fun e => e.inp) = zs ++ (d :: bs ++ [last]) := by
  have h (b : Byte) (l : List Byte) : (l.map (event s b)).map (fun e => e.inp) = l := by
    rw [List.map_map]
    exact List.map_id l
  rw [closeEvents, List.map_append, List.map_append, h, h]
  rfl

theorem closeEvents_length_pos (s : State) (zs : List Byte) (d : Byte) (bs : List Byte) (last : Byte) :
    1 ≤ (closeEvents s zs d bs last).length := by
  simp only [closeEvents, List.length_append, List.length_singleton]
  omega

theorem closeEvents_fast {s : State} {zs : List Byte} {d : Byte} {bs : List Byte} {last : Byte} {e : BusEvent}
    (he : e ∈ closeEvents s zs d bs last) : e.fast = s.fast := by
  simp only [closeEvents, List.mem_append, List.mem_map, List.mem_singleton] at he
  obtain ⟨-, -, rfl⟩ | ⟨-, -, rfl⟩ | rfl := he <;> rfl

theorem CloseRest.step {k : CloseFor} {r : Result} {es : List BusEvent} {s t : State} {out : Byte}
    (h : engineMove s = .next t) (ht : t = { xchg out s with wcur := t.wcur, eng := t.eng }) (hr : CloseRest k r es t) :
    CloseRest k r (event s out (cardByte s) :: es) s := by
  obtain ⟨ci, d, hran⟩ := hr
  rw [ht] at hran
  refine ⟨ci, d, ?_⟩
  rw [closed, List.reverse_cons, List.append_assoc]
  exact .exchange (h.trans (congrArg _ ht)) rfl rfl hran

section Rest

variable {k : CloseFor} {s : State} (hk : Closes k s.latch)
include hk

theorem closeDesel_rest {r : Result} (he : s.eng = .closeDesel k r) (hw : s.wcur = 0) :
    ∃ last, CloseRest k r [⟨false, s.fast, 0xFF, last⟩] s := by
  refine ⟨cardByte s, s.cardIn.tail, (closeDeselStep k r s).dout, .exchange (engineMove_closeDesel hk he) rfl rfl ?_⟩
  rw [← hw]
  exact .refl _ _

theorem closeBusy_rest {left : Nat} (he : s.eng = .closeBusy k left) (hw : s.wcur = 0) :
    ∃ r bs last, BusyBytes (left + 1) r bs ∧ CloseRest k r (bs.map (event s 0xFF) ++ [⟨false, s.fast, 0xFF, last⟩]) s := by
  induction left generalizing s with
  | zero =>
    have hm := engineMove_closeBusy hk he
    rw [closeBusyStep_eq, if_pos rfl] at hm
    by_cases hff : cardByte s = 0xFF
    · rw [if_pos hff] at hm
      obtain ⟨last, hr⟩ := closeDesel_rest (s := goto (.closeDesel k .ok) (rcv s)) hk rfl hw
      exact ⟨.ok, [cardByte s], last, hff ▸ .found 0, hr.step hm rfl⟩
    · rw [if_neg hff] at hm
      obtain ⟨last, hr⟩ := closeDesel_rest (s := goto (.closeDesel k .error) (rcv s)) hk rfl hw
      exact ⟨.error, [cardByte s], last, .timeout hff, hr.step hm rfl⟩
  | succ n ih =>
    have hm := engineMove_closeBusy hk he
    rw [closeBusyStep_eq, if_neg (Nat.succ_ne_zero n)] at hm
    by_cases hff : cardByte s = 0xFF
    · rw [if_pos hff] at hm
      obtain ⟨last, hr⟩ := closeDesel_rest (s := goto (.closeDesel k .ok) (rcv s)) hk rfl hw
      exact ⟨.ok, [cardByte s], last, hff ▸ .found (n + 1), hr.step hm rfl⟩
    · rw [if_neg hff] at hm
      obtain ⟨r, bs, last, hbs, hr⟩ := ih (s := goto (.closeBusy k n) (rcv s)) hk rfl hw
      exact ⟨r, cardByte s :: bs, last, hbs.cons hff, hr.step hm rfl⟩

/-- What the card answers to a close that ends with `r`: the data response `d`, and the busy bytes. -/
structure CloseAnswers (n : Nat) (r : Result) (d : Byte) (bs : List Byte) : Prop where
  bound : bs.length ≤ n
  waiting : ∀ b ∈ bs.dropLast, b ≠ 0xFF
  rejected : d &&& 0x1F ≠ 0x05 → bs = [] ∧ r = .error
  accepted : d &&& 0x1F = 0x05 → (bs.getLast? = some 0xFF ∧ r = .ok) ∨ (bs.length = n ∧ bs.getLast? ≠ some 0xFF ∧ r = .error)

theorem closeResp_rest (he : s.eng = .closeResp k) (hw : s.wcur = 0) (hp : 1 ≤ s.par.retryBusy) :
    ∃ r d bs last, CloseAnswers s.par.retryBusy r d bs
      ∧ CloseRest k r ((d :: bs).map (event s 0xFF) ++ [⟨false, s.fast, 0xFF, last⟩]) s := by
  have hm := engineMove_closeResp hk he
  rw [closeRespStep_eq] at hm
  by_cases hd : cardByte s &&& 0x1F = 0x05
  · rw [if_pos hd] at hm
    obtain ⟨r, bs, last, hbs, hr⟩ := closeBusy_rest (s := goto (.closeBusy k (s.par.retryBusy - 1)) (rcv s)) hk rfl hw
    rw [Nat.sub_add_cancel hp] at hbs
    exact ⟨r, cardByte s, bs, last, ⟨hbs.bound, hbs.waiting, (absurd hd ·), fun _ => hbs.ended⟩, hr.step hm rfl⟩
  · rw [if_neg hd] at hm
    obtain ⟨last, hr⟩ := closeDesel_rest (s := goto (.closeDesel k .error) (rcv s)) hk rfl hw
    exact ⟨.error, cardByte s, [], last, ⟨Nat.zero_le _, by simp, fun _ => ⟨rfl, rfl⟩, (absurd · hd)⟩, hr.step hm rfl⟩

theorem closeCrc_second_rest (he : s.eng = .closeCrc k true) (hw : s.wcur = 0) (hp : 1 ≤ s.par.retryBusy) :
    ∃ r z d bs last, CloseAnswers s.par.retryBusy r d bs ∧ CloseRest k r (closeEvents s [z] d bs last) s := by
  have hm := engineMove_closeCrc hk he
  obtain ⟨r, d, bs, last, h, hr⟩ := closeResp_rest (s := goto (.closeResp k) (xchg 0x00 s)) hk rfl hw hp
  exact ⟨r, cardByte s, d, bs, last, h, hr.step hm rfl⟩

theorem closeCrc_rest (he : s.eng = .closeCrc k false) (hw : s.wcur = 0) (hp : 1 ≤ s.par.retryBusy) :
    ∃ r zs d bs last, zs.length = 2 ∧ CloseAnswers s.par.retryBusy r d bs ∧ CloseRest k r (closeEvents s zs d bs last) s := by
  have hm := engineMove_closeCrc hk he
  obtain ⟨r, z, d, bs, last, h, hr⟩ := closeCrc_second_rest (s := goto (.closeCrc k true) (xchg 0x00 s)) hk rfl hw hp
  exact ⟨r, [cardByte s, z], d, bs, last, rfl, h, hr.step hm rfl⟩

/-- A close from its start, whatever the card answers. -/
theorem close_rest (he : s.eng = closeStart k s) (hp : 1 ≤ s.par.retryBusy) :
    ∃ r zs d bs last, zs.length = s.wcur.toNat + 2 ∧ CloseAnswers s.par.retryBusy r d bs
      ∧ CloseRest k r (closeEvents s zs d bs last) s := by
  generalize hn : s.wcur.toNat = n
  induction n generalizing s with
  | zero =>
    have hw : s.wcur = 0 := BitVec.eq_of_toNat_eq hn
    exact closeCrc_rest hk (he.trans (if_pos hw)) hw hp
  | succ n ih =>
    have hw : s.wcur ≠ 0 := fun h => by simp [h] at hn
    have hm := engineMove_closePad hk (he.trans (if_neg hw))
    obtain ⟨r, zs, d, bs, last, hlen, h, hr⟩ := ih (s := closePadStep k s) hk rfl hp
      ((sub_one_toNat (by omega)).trans (by omega))
    exact ⟨r, cardByte s :: zs, d, bs, last, by simp [hlen], h, hr.step hm rfl⟩

end Rest

/-! ### WRITE close (R220) -/

theorem CloseAnswers.ok_iff {n : Nat} {r : Result} {d : Byte} {bs : List Byte} (h : CloseAnswers n r d bs) :
    r = .ok ↔ d &&& 0x1F = 0x05 ∧ bs.getLast? = some 0xFF := by
  by_cases hd : d &&& 0x1F = 0x05
  · obtain ⟨hlast, rfl⟩ | ⟨-, hlast, rfl⟩ := h.accepted hd
    · exact iff_of_true rfl ⟨hd, hlast⟩
    · exact iff_of_false (by decide) fun h => hlast h.2
  · exact iff_of_false (by rw [(h.rejected hd).2]; decide) fun h => hd h.1

theorem CloseAnswers.ok_or_error {n : Nat} {r : Result} {d : Byte} {bs : List Byte} (h : CloseAnswers n r d bs) :
    r = .ok ∨ r = .error := by
  by_cases hd : d &&& 0x1F = 0x05
  · exact (h.accepted hd).imp And.right fun h => h.2.2
  · exact .inr (h.rejected hd).2

theorem engineMove_closeLaunched {s : State} (hk : Closes .op s.latch) (he : s.eng = .launched) :
    engineMove s = .next (refuseIf (!s.wopen) .parErr (closeStart .op s) s) :=
  engineMove_closing hk (by simp [he]) (by simp [he]) (fun _ => by simp only [writeCloseStep, he]) nofun

theorem engineMove_closeFin {s : State} {r : Result} (hk : Closes .op s.latch) (he : s.eng = .fin r) :
    engineMove s = .next (finish r s) :=
  engineMove_closing hk (by simp [he]) (by simp [he]) (fun _ => by simp only [writeCloseStep, he]) nofun

theorem paramsOk_retryBusy {p : Params} (h : paramsOk p = true) : 1 ≤ p.retryBusy := by
  obtain ⟨-, -, -, -, -, hb⟩ := of_decide_eq_true h
  exact hb

/-- Settles O56. -/
theorem writeCloseAlwaysEndsTheStream : Obligations.WriteCloseAlwaysEndsTheStream := by
  intro s he hl hd ha hw hp
  have hk : Closes .op s.latch := ⟨hl, hd, ha⟩
  obtain ⟨r, zs, d, bs, last, hlen, h, ci, dd, hrest⟩ := close_rest (s := goto (closeStart .op s) s) hk rfl
    (paramsOk_retryBusy hp)
  have hran := (((Ran.refl s).checked (engineMove_closeLaunched hk he) (by simp [hw])).trans hrest.ran).thenSilent
    (engineMove_closeFin (s := closed { goto (closeStart .op s) s with wcur := 0 } _ ci dd (.fin r)) hk rfl) rfl
  refine ⟨d, bs, _, last, _, hran.run, ?_, ?_, h.bound, fun hd => (h.rejected hd).1, h.ok_iff, h.ok_or_error, rfl⟩
  · rw [hran.sentBytes, List.nil_append, closeEvents_out, hlen]; rfl
  · rw [hran.receivedBytes, List.nil_append, closeEvents_inp]; exact List.drop_left' hlen

/-! ### INIT's step 0 (R181) -/

theorem engineRun_of_engineMove_eq {s t : State} (h : engineMove s = engineMove t) {n : Nat} (hn : 1 ≤ n) :
    engineRun n s = engineRun n t := by
  obtain ⟨m, rfl⟩ := Nat.exists_eq_add_of_le' hn
  simp only [engineRun, h]

/-- The engine of an operation that ended takes no step, so a run that ends busy was busy before. -/
theorem busy_of_engineRun {j n : Nat} {s u t : State} (hu : engineRun j s = .next u) (ht : engineRun n s = .next t)
    (hjn : j ≤ n) (hb : busy t = true) : busy u = true := by
  obtain ⟨m, rfl⟩ := Nat.exists_eq_add_of_le hjn
  rw [engineRun_add j m hu] at ht
  by_contra hidle
  have hidle : u.eng = .idle := by simpa [busy] using hidle
  have hstay : ∀ m, engineRun m u = .next u := fun m => by
    induction m with
    | zero => rfl
    | succ m ih => rw [engineRun_succ m (engineMove_idle u hidle), ih]
  obtain rfl := Host.Outcome.next.inj ((hstay m).symm.trans ht)
  simp [busy, hidle] at hb

/-- An INIT that finds a write open is at its close, the descriptor cleared (R182, log entry 17). -/
def initClosing (s : State) : State := goto (closeStart .init (clearDescriptor s)) (clearDescriptor s)

theorem engineMove_initOpen {s : State} (hl : s.latch.op = 1) (he : s.eng = .launched) (hw : s.wopen = true) :
    engineMove s = engineMove (initClosing s) := by
  have hk : Closes .init (initClosing s).latch := hl
  rw [engineMove_init s hl (by simp [he]) (by simp [he])]
  simp only [initStep, he]
  rw [initStart_open hw]
  by_cases h0 : s.wcur = 0
  · rw [if_pos h0, engineMove_closeCrc (second := false) hk (if_pos h0)]; rfl
  · rw [if_neg h0, engineMove_closePad hk (if_neg h0)]; rfl

/-- Settles O43. -/
theorem initClosesAnOpenWriteFirst : Obligations.InitClosesAnOpenWriteFirst := by
  intro s he hl hw hp
  obtain ⟨r, zs, d, bs, last, hlen, h, ci, dd, hrest⟩ := close_rest (k := .init) (s := initClosing s) hl rfl
    (paramsOk_retryBusy hp)
  have hmove := engineMove_initOpen hl he hw
  have hran : Ran _ _ s _ :=
    ⟨(engineRun_of_engineMove_eq hmove (closeEvents_length_pos _ _ _ _ _)).trans hrest.ran.run, hrest.ran.trace⟩
  refine ⟨d, bs, _, last, _, hran.run, ?_, ?_, ?_, h.bound, fun hd => (h.rejected hd).1,
    fun hd => (h.accepted hd).imp And.left And.left, h.waiting, fun j u h1 hj hu => ⟨?_, ?_⟩, rfl⟩
  · rw [hran.sentBytes, closeEvents_out, hlen]; rfl
  · rw [hran.receivedBytes, closeEvents_inp]; exact List.drop_left' hlen
  · rw [hran.newEvents]
    exact fun e he => closeEvents_fast he
  · exact (ready_eq_false_iff u).mpr (hrest.through j u h1 hj ((engineRun_of_engineMove_eq hmove h1) ▸ hu))
  · exact busy_of_engineRun hu hran.run hj rfl

end Sys2Proof.Machine

/-! PROOFS. The run of a READ that passes its checks (R211, R213 to R216). -/

namespace Sys2Proof.Machine

/-! ### The steps of READ after its command -/

section Steps

variable {s : State} (hl : s.latch.op = 2)
include hl

theorem engineMove_token {left : Nat} (he : s.eng = .token left) : engineMove s = .next (tokenStep left s) := by
  rw [engineMove_read s hl (by simp [he]) (by simp [he]), readStep_token _ _ _ _ he]

theorem engineMove_readDesel {r : Result} (he : s.eng = .desel r) : engineMove s = .next (deselStep r s) := by
  rw [engineMove_read s hl (by simp [he]) (by simp [he]), readStep_desel _ _ _ _ he]

theorem engineMove_readFin {r : Result} (he : s.eng = .fin r) : engineMove s = .next (finish r s) := by
  rw [engineMove_read s hl (by simp [he]) (by simp [he]), readStep_fin _ _ _ _ he]

theorem engineMove_packet {j : Nat} (he : s.eng = .packet j) :
    engineMove s = .next (packetStep (readDest s.latch) s.latch.off s.latch.cnt j s) := by
  rw [engineMove_read s hl (by simp [he]) (by simp [he]), readStep_packet _ _ _ _ he]
  rfl

end Steps

/-- Byte `j` of the packet is one of those asked for (R215). -/
def PacketByteKept (l : Latches) (j : Nat) : Prop :=
  l.den = true ∧ l.off.toNat ≤ j ∧ j < l.off.toNat + l.cnt.toNat

theorem dest_ne_of_lt {l : Latches} {j k : Nat} (h : PacketByteKept l j) (hjk : j < k) :
    l.addr.toNat + (j - l.off.toNat) ≠ l.addr.toNat + (k - l.off.toNat) := by
  have := h.2.1
  omega

theorem storeAddress_kept {l : Latches} {j : Nat} (h : PacketByteKept l j) :
    storeAddress (readDest l) l.off l.cnt j = some (l.addr.toNat + (j - l.off.toNat)) := by
  obtain ⟨hd, hrange⟩ := h
  simp [readDest, hd, storeAddress, hrange]

theorem storeAddress_dropped {l : Latches} {j : Nat} (h : ¬ PacketByteKept l j) :
    storeAddress (readDest l) l.off l.cnt j = none := by
  unfold PacketByteKept at h
  cases hd : l.den <;> simp_all [readDest, storeAddress]

/-- The destination lies in block memory (R212 (4)). -/
def DestInside (s : State) : Prop := s.latch.den = true → s.latch.addr.toNat + s.latch.cnt.toNat ≤ bmemSize s.par

/-- What storing packet byte `j` does to the memory `m` was. -/
structure PacketStored (s : State) (j : Nat) (m : List Host.Cell) : Prop where
  kept : PacketByteKept s.latch j → memRead { s with mem := m } (s.latch.addr.toNat + (j - s.latch.off.toNat)) = cardByte s
  frame : ∀ x, ¬ (PacketByteKept s.latch j ∧ x = s.latch.addr.toNat + (j - s.latch.off.toNat)) →
    memRead { s with mem := m } x = memRead s x

theorem packet_move {s : State} {j : Nat} (hl : s.latch.op = 2) (hin : DestInside s) (he : s.eng = .packet j) :
    ∃ m, engineMove s = .next { rcv s with mem := m, eng := if j + 1 < 514 then .packet (j + 1) else .desel .ok }
      ∧ PacketStored s j m := by
  have hread : ∀ x, memRead { s with mem := (storeAt (storeAddress (readDest s.latch) s.latch.off s.latch.cnt j)
      (cardByte s) (rcv s)).mem } x
      = memRead (storeAt (storeAddress (readDest s.latch) s.latch.off s.latch.cnt j) (cardByte s) (rcv s)) x :=
    memRead_congr rfl (congrArg State.epoch (storeAt_frame _ _ (rcv s))).symm
  refine ⟨_, by rw [engineMove_packet hl he, packetStep_eq, storeAt_frame]; rfl, fun hk => ?_, fun x hx => ?_⟩
  · have ha : s.latch.addr.toNat + (j - s.latch.off.toNat) < bmemSize s.par := by
      have hdest := hin hk.1
      obtain ⟨-, h1, h2⟩ := hk
      omega
    rw [hread, storeAddress_kept hk]
    exact memRead_memWrite_same (rcv s) _ _ ha
  · rw [hread]
    by_cases hk : PacketByteKept s.latch j
    · rw [storeAddress_kept hk]
      exact memRead_memWrite_ne (rcv s) _ x _ fun h => hx ⟨hk, h⟩
    · rw [storeAddress_dropped hk]
      rfl

/-! ### The data phase -/

/-- The state at the end of a READ, `es` later. -/
def readEnded (s : State) (es : List BusEvent) (ci : List Byte) (d : Bool) (m : List Host.Cell) (r : Result) : State :=
  { s with csa := false, trace := es.reverse ++ s.trace, cardIn := ci, dout := d, mem := m, result := r, eng := .idle }

theorem readEnded_cons (s : State) (es : List BusEvent) (ci : List Byte) (d : Bool) (m m' : List Host.Cell) (r : Result)
    (p : EnginePos) : readEnded s (event s 0xFF (cardByte s) :: es) ci d m' r
      = readEnded { rcv s with mem := m, eng := p } es ci d m' r := by
  rw [readEnded, List.reverse_cons, List.append_assoc]
  rfl

theorem readDesel_run {s : State} {r : Result} (hl : s.latch.op = 2) (he : s.eng = .desel r) :
    ∃ (e : BusEvent) (ci : List Byte) (d : Bool), Ran 2 [e] s (readEnded s [e] ci d s.mem r) := by
  refine ⟨⟨false, s.fast, 0xFF, cardByte s⟩, s.cardIn.tail, (deselect s).dout, .exchange (engineMove_readDesel hl he) rfl ?_⟩
  exact .silent (engineMove_readFin (s := deselStep r s) hl rfl) rfl (.refl _)

/-- Byte `k` of the packet, 514 exchanges before the last, is in memory if it was asked for. -/
def StoredFrom (j : Nat) (t : State) : Prop :=
  ∀ k, j ≤ k → PacketByteKept t.latch k →
    (t.trace[514 - k]?).map (fun e => e.inp) = some (memRead t (t.latch.addr.toNat + (k - t.latch.off.toNat)))

/-- Addresses that packet bytes from `j` on do not go to keep their bytes. -/
def KeptFrom (j : Nat) (s t : State) : Prop :=
  ∀ x, (∀ k, j ≤ k → PacketByteKept s.latch k → x ≠ s.latch.addr.toNat + (k - s.latch.off.toNat)) →
    memRead t x = memRead s x

theorem packet_run {s : State} {j n : Nat} (hl : s.latch.op = 2) (hin : DestInside s)
    (hsum : s.latch.off.toNat + s.latch.cnt.toNat ≤ 512) (he : s.eng = .packet j) (hj : j + n = 513) :
    ∃ (es : List BusEvent) (ci : List Byte) (d : Bool) (m : List Host.Cell), es.length = n + 2
      ∧ Ran (n + 3) es s (readEnded s es ci d m .ok)
      ∧ StoredFrom j (readEnded s es ci d m .ok) ∧ KeptFrom j s (readEnded s es ci d m .ok) := by
  induction n generalizing s j with
  | zero =>
    obtain ⟨m, hm, hstored⟩ := packet_move hl hin he
    rw [if_neg (by omega)] at hm
    obtain ⟨e, ci, d, hran⟩ := readDesel_run (s := { rcv s with mem := m, eng := .desel .ok }) hl rfl
    refine ⟨[⟨s.csa, s.fast, 0xFF, cardByte s⟩, e], ci, d, m, rfl, .exchange hm rfl hran, fun k hk hkept => ?_, fun x hx => ?_⟩
    · obtain ⟨-, -, hlt⟩ := hkept
      have hlt : k < s.latch.off.toNat + s.latch.cnt.toNat := hlt
      omega
    · exact hstored.frame x fun h => hx j le_rfl h.1 h.2
  | succ n ih =>
    obtain ⟨m, hm, hstored⟩ := packet_move hl hin he
    rw [if_pos (by omega)] at hm
    obtain ⟨es, ci, d, m', hlen, hran, hlate, hkeep⟩ :=
      ih (s := { rcv s with mem := m, eng := .packet (j + 1) }) (j := j + 1) hl hin hsum rfl (by omega)
    refine ⟨event s 0xFF (cardByte s) :: es, ci, d, m', by simp [hlen], ?_, ?_⟩
    all_goals rw [readEnded_cons s es ci d m m' .ok (.packet (j + 1))]
    · exact .exchange hm rfl hran
    refine ⟨fun k hk hkept => ?_, fun x hx => ?_⟩
    · obtain rfl | hlt := Nat.eq_or_lt_of_le hk
      · have hread := (hkeep _ fun k hk _ => dest_ne_of_lt hkept hk).trans (hstored.kept hkept)
        have htrace : (readEnded { rcv s with mem := m, eng := .packet (j + 1) } es ci d m' .ok).trace
            = es.reverse ++ event s 0xFF (cardByte s) :: s.trace := rfl
        rw [htrace, List.getElem?_append_right (by simp [hlen]; omega), List.length_reverse, hlen,
          show 514 - j - (n + 2) = 0 by omega]
        exact congrArg some hread.symm
      · exact hlate k hlt hkept
    · exact (hkeep x fun k hk => hx k (by omega)).trans (hstored.frame x fun h => hx j le_rfl h.1 h.2)

/-- What a READ leaves: the packet where it was asked for, or `ERROR` and memory as it was. -/
def ReadOutcome (s : State) (es : List BusEvent) (ci : List Byte) (d : Bool) (m : List Host.Cell) (r : Result) : Prop :=
  (r = .ok ∧ 515 ≤ es.length ∧ StoredFrom 0 (readEnded s es ci d m r) ∧ KeptFrom 0 s (readEnded s es ci d m r))
    ∨ (r = .error ∧ m = s.mem)

/-- From `s`, READ ends within `bound` exchanges. -/
def ReadEnds (bound : Nat) (s : State) : Prop :=
  ∃ (n : Nat) (es : List BusEvent) (ci : List Byte) (d : Bool) (m : List Host.Cell) (r : Result), es.length ≤ bound
    ∧ Ran n es s (readEnded s es ci d m r) ∧ ReadOutcome s es ci d m r

section Outcome

variable {s : State} {es : List BusEvent} {ci : List Byte} {d : Bool} {m : List Host.Cell} {r : Result}
  (h : ReadOutcome s es ci d m r)
include h

theorem ReadOutcome.whole_packet (hr : r = .ok) : 515 ≤ es.length ∧ StoredFrom 0 (readEnded s es ci d m r) := by
  obtain ⟨-, hmany, hstored, -⟩ | ⟨herr, -⟩ := h
  · exact ⟨hmany, hstored⟩
  · exact absurd (herr.symm.trans hr) (by decide)

theorem ReadOutcome.stored (hr : r = .ok) (hd : s.latch.den = true) {i : Nat} (hi : i < s.latch.cnt.toNat) :
    ((readEnded s es ci d m r).trace[514 - (s.latch.off.toNat + i)]?).map (fun e => e.inp)
      = some (memRead (readEnded s es ci d m r) (s.latch.addr.toNat + i)) := by
  have hk := (h.whole_packet hr).2 (s.latch.off.toNat + i) (Nat.zero_le _)
    ⟨hd, Nat.le_add_right _ i, Nat.add_lt_add_left hi _⟩
  have haddr : (readEnded s es ci d m r).latch.addr.toNat + (s.latch.off.toNat + i - (readEnded s es ci d m r).latch.off.toNat)
      = s.latch.addr.toNat + i := congrArg _ (Nat.add_sub_cancel_left _ i)
  rwa [haddr] at hk

theorem ReadOutcome.frame {x : Nat} (hx : s.latch.den = false ∨ r ≠ .ok ∨ x < s.latch.addr.toNat
    ∨ s.latch.addr.toNat + s.latch.cnt.toNat ≤ x) : memRead (readEnded s es ci d m r) x = memRead s x := by
  obtain ⟨hok, -, -, hkept⟩ | ⟨-, rfl⟩ := h
  · refine hkept x fun k _ ⟨hd, hoff, hlt⟩ => ?_
    have hout : x < s.latch.addr.toNat ∨ s.latch.addr.toNat + s.latch.cnt.toNat ≤ x := by simpa [hd, hok] using hx
    omega
  · rfl

end Outcome

theorem ReadEnds.rcv {bound : Nat} {s : State} {p : EnginePos} (h : engineMove s = .next (goto p (rcv s)))
    (hr : ReadEnds bound (goto p (rcv s))) : ReadEnds (bound + 1) s := by
  obtain ⟨n, es, ci, d, m, r, hlen, hran, hout⟩ := hr
  have hend := readEnded_cons s es ci d s.mem m r p
  refine ⟨n + 1, event s 0xFF (cardByte s) :: es, ci, d, m, r, Nat.succ_le_succ hlen, ?_, hout.imp_left ?_⟩
  · rw [hend]
    exact .exchange h rfl hran
  · rintro ⟨hr, hmany, hstored, hkept⟩
    rw [hend]
    exact ⟨hr, Nat.le_succ_of_le hmany, hstored, hkept⟩

theorem readEnds_error {s : State} (hl : s.latch.op = 2) (he : s.eng = .desel .error) (k : Nat) : ReadEnds (k + 1) s := by
  obtain ⟨e, ci, d, hran⟩ := readDesel_run hl he
  exact ⟨2, [e], ci, d, s.mem, .error, by simp, hran, .inr ⟨rfl, rfl⟩⟩

theorem readEnds_packet {s : State} (hl : s.latch.op = 2) (hin : DestInside s)
    (hsum : s.latch.off.toNat + s.latch.cnt.toNat ≤ 512) (he : s.eng = .packet 0) (k : Nat) : ReadEnds (k + 515) s := by
  obtain ⟨es, ci, d, m, hlen, hran, hstored, hkept⟩ := packet_run (n := 513) hl hin hsum he rfl
  exact ⟨_, es, ci, d, m, .ok, by omega, hran, .inl ⟨rfl, by omega, hstored, hkept⟩⟩

theorem readEnds_token {s : State} {left : Nat} (hl : s.latch.op = 2) (hin : DestInside s)
    (hsum : s.latch.off.toNat + s.latch.cnt.toNat ≤ 512) (he : s.eng = .token left) : ReadEnds (left + 515 + 1) s := by
  induction left generalizing s with
  | zero =>
    have hm := engineMove_token hl he
    rw [tokenStep_eq, if_pos rfl] at hm
    refine .rcv hm ?_
    split
    · exact readEnds_error (s := goto _ (rcv s)) hl rfl 514
    · split
      · exact readEnds_packet (s := goto _ (rcv s)) hl hin hsum rfl 0
      · exact readEnds_error (s := goto _ (rcv s)) hl rfl 514
  | succ left ih =>
    have hm := engineMove_token hl he
    rw [tokenStep_eq, if_neg (Nat.succ_ne_zero left)] at hm
    refine .rcv hm ?_
    split
    · have h := ih (s := goto (.token left) (rcv s)) hl hin hsum rfl
      exact (by omega : left + 515 + 1 = left + 1 + 515) ▸ h
    · split
      · exact readEnds_packet (s := goto _ (rcv s)) hl hin hsum rfl (left + 1)
      · exact readEnds_error (s := goto _ (rcv s)) hl rfl (left + 515)

theorem paramsOk_retryToken {p : Params} (h : paramsOk p = true) : 1 ≤ p.retryToken := by
  obtain ⟨-, -, -, -, ht, -⟩ := of_decide_eq_true h
  exact ht

/-- Settles O50: the checks, CMD17, the token wait and the data phase. -/
theorem readStoresTheBytesItReceives : Obligations.ReadStoresTheBytesItReceives := by
  intro s he hl hf hw hp hsum hin
  have hchecked := read_checked_run hl he hf hw hsum hin
  obtain ⟨k, r1, es, ci, d, h, hsend⟩ := send_run (s := goto _ s) (ret := .plain .read)
    (c := .cmd17 (cardAddress s.block s.latch.arg0)) rfl
  have hends : ReadEnds (s.par.retryToken + 515) (commanded s es ci d r1 (returned s.par (.plain .read) r1)) := by
    have hback : returned s.par (.plain .read) r1 = if r1 = 0x00 then .token (s.par.retryToken - 1) else .desel .error := by
      simp only [returned, resume, afterReadCmd, readyR1, decide_eq_true_eq]
    rw [hback]
    split
    · have ht := paramsOk_retryToken hp
      have h := readEnds_token (s := commanded s es ci d r1 (.token (s.par.retryToken - 1))) hl hin hsum rfl
      exact (by omega : s.par.retryToken - 1 + 515 + 1 = s.par.retryToken + 515) ▸ h
    · exact readEnds_error (s := commanded s es ci d r1 _) hl rfl _
  obtain ⟨n, fs, ci', d', m, r, hlen, hend, hout⟩ := hends
  have hran := (hchecked.trans hsend).trans hend
  have hel := h.length
  have hk := h.bound
  have hlen' := congrArg List.length hran.newEvents
  rw [List.length_append, List.nil_append, hel] at hlen'
  exact ⟨_, _, hran.run, rfl, hout.imp And.left And.left, hlen'.le.trans (by omega),
    fun hr => ⟨((hout.whole_packet hr).1.trans (Nat.le_add_left _ _)).trans hlen'.ge, fun hd i hi => hout.stored hr hd hi⟩,
    fun x hx => hout.frame hx, rfl⟩

end Sys2Proof.Machine

/-! PROOFS. INIT ends within its bound (R180, R190, R191). -/

namespace Sys2Proof.Machine

/-! ### How an INIT ends -/

/-- What an INIT leaves of the descriptor, the clock mode and `RESULT` (R190). -/
structure InitOutcome (fam : Family) (blk fast : Bool) (r : Result) : Prop where
  ended : (r = .ok ∧ fam ≠ .unknown ∧ fast = true) ∨ (r = .notRdy ∧ fam = .unknown ∧ blk = false ∧ fast = false)
  block : blk = true → fam = .sdv2

/-- Nothing outside the transport, the descriptor, `LASTR1`, `OCR`, `RESULT` and the sequencer position changed. -/
def InitFrame (s t : State) : Prop :=
  t = { s with family := t.family, block := t.block, fast := t.fast, csa := t.csa, lastR1 := t.lastR1, ocr := t.ocr,
               result := t.result, eng := t.eng, trace := t.trace, cardIn := t.cardIn, dout := t.dout }

theorem InitFrame.trans {s t u : State} (h : InitFrame s t) (h' : InitFrame t u) : InitFrame s u := by
  unfold InitFrame at *
  rw [h] at h'
  exact h'

theorem InitFrame.par_eq {s t : State} (h : InitFrame s t) : t.par = s.par := by
  rw [InitFrame] at h
  rw [h]

theorem InitFrame.latch_eq {s t : State} (h : InitFrame s t) : t.latch = s.latch := by
  rw [InitFrame] at h
  rw [h]

/-- From `s`, INIT ends within `bound` exchanges, all of them in slow mode. -/
def InitEnds (bound : Nat) (s : State) : Prop :=
  ∃ (n : Nat) (es : List BusEvent) (t : State), Ran n es s t ∧ es.length ≤ bound ∧ (∀ e ∈ es, e.fast = false)
    ∧ InitFrame s t ∧ t.eng = .idle ∧ t.csa = false ∧ InitOutcome t.family t.block t.fast t.result

theorem InitEnds.mono {b c : Nat} {s : State} (h : InitEnds b s) (hbc : b ≤ c) : InitEnds c s := by
  obtain ⟨n, es, t, hran, hlen, h⟩ := h
  exact ⟨n, es, t, hran, hlen.trans hbc, h⟩

/-- A run before the end of an INIT. -/
theorem InitEnds.after {n b : Nat} {es : List BusEvent} {s t : State} (hran : Ran n es s t)
    (hslow : ∀ e ∈ es, e.fast = false) (hf : InitFrame s t) (h : InitEnds b t) : InitEnds (es.length + b) s := by
  obtain ⟨m, fs, u, hrest, hlen, hslow', hf', h⟩ := h
  refine ⟨n + m, es ++ fs, u, hran.trans hrest, ?_, fun e he => ?_, hf.trans hf', h⟩
  · rw [List.length_append]
    exact Nat.add_le_add_left hlen _
  · exact (List.mem_append.mp he).elim (hslow e) (hslow' e)

theorem InitEnds.exchange {b : Nat} {e : BusEvent} {s t : State} (h : engineMove s = .next t)
    (ht : t.trace = e :: s.trace) (hslow : e.fast = false) (hf : InitFrame s t) (hr : InitEnds b t) : InitEnds (b + 1) s :=
  (hr.after (.exchange h ht (.refl t)) (by simpa using hslow) hf).mono (by simp [Nat.add_comm])

theorem InitEnds.silent {b : Nat} {s t : State} (h : engineMove s = .next t)
    (ht : t.trace = s.trace) (hf : InitFrame s t) (hr : InitEnds b t) : InitEnds b s :=
  (hr.after (.silent h ht (.refl t)) nofun hf).mono (Nat.zero_add b).le

/-! ### From each place of INIT -/

/-- An INIT with these parameters, at this place in slow mode, ends within `bound` exchanges. -/
def EndsWithin (p : Params) (pos : EnginePos) (bound : Nat) : Prop :=
  ∀ s : State, s.latch.op = 1 → s.fast = false → s.par = p → s.eng = pos → InitEnds bound s

theorem EndsWithin.mono {p : Params} {pos : EnginePos} {b c : Nat} (h : EndsWithin p pos b) (hbc : b ≤ c) :
    EndsWithin p pos c :=
  fun s hl hs hp he => (h s hl hs hp he).mono hbc

theorem engineMove_initAt {s t : State} {pos : EnginePos} (hl : s.latch.op = 1) (he : s.eng = pos) (h1 : pos ≠ .idle)
    (h2 : ∀ r c ph, pos ≠ .cmd r c ph) (h : initStep s = t) : engineMove s = .next t := by
  rw [engineMove_init s hl (he ▸ h1) (he ▸ h2), h]

variable {p : Params}

theorem initEnds_fin {s : State} {r : Result} (hl : s.latch.op = 1) (he : s.eng = .fin r) (hcsa : s.csa = false)
    (h : InitOutcome s.family s.block s.fast r) : InitEnds 0 s :=
  ⟨1, [], finish r s, .silent (engineMove_initAt (t := finish r s) hl he nofun nofun (by simp only [initStep, he])) rfl (.refl _), le_rfl,
    nofun, rfl, rfl, hcsa, h⟩

theorem initEnds_setFast {s : State} (hl : s.latch.op = 1) (he : s.eng = .setFast) (hcsa : s.csa = false)
    (hf : s.family ≠ .unknown) (hb : s.block = true → s.family = .sdv2) : InitEnds 0 s :=
  .silent (t := initSetFastStep s) (engineMove_initAt hl he nofun nofun (by simp only [initStep, he])) rfl rfl
    (initEnds_fin (s := initSetFastStep s) (r := .ok) hl rfl hcsa ⟨.inl ⟨rfl, hf, rfl⟩, hb⟩)

theorem endsWithin_initEnd (p : Params) (fam : Family) (blk : Bool) : EndsWithin p (.initEnd fam blk) 1 := by
  intro s hl hs hp he
  refine .exchange (t := initEndStep fam blk s) (engineMove_initAt hl he nofun nofun (by simp only [initStep, he]))
    rfl hs rfl ?_
  by_cases hf : fam = .unknown
  · subst hf
    exact initEnds_fin (s := initEndStep .unknown blk s) hl rfl rfl ⟨.inr ⟨rfl, rfl, rfl, hs⟩, nofun⟩
  · exact initEnds_setFast (s := initEndStep fam blk s) hl (if_neg hf) rfl hf
      fun hb => of_decide_eq_true (Bool.and_eq_true_iff.mp hb).1

theorem endsWithin_plain {k : Caller} {c : CardCmd} {b : Nat} (h : ∀ r, EndsWithin p (resume p k r) b) :
    EndsWithin p (.cmd (.plain k) c .desel) (18 + b) := by
  intro s hl hs hp he
  obtain ⟨n, r, es, ci, d, hsend, hran⟩ := send_run he
  subst hp
  have hk := hsend.bound
  have hlen := hsend.length
  exact ((h r (commanded s es ci d r _) hl hs rfl rfl).after hran (fun e he => (hsend.fast e he).trans hs) rfl).mono
    (by omega)

theorem endsWithin_lead {k : Caller} {hcs : Bool} {b : Nat} (h : ∀ r, EndsWithin p (resume p k r) b) :
    EndsWithin p (.cmd (.lead hcs k) .cmd55 .desel) (36 + b) := by
  intro s hl hs hp he
  obtain ⟨n, r, es, ci, d, hsend, hran⟩ := send_run he
  subst hp
  have hk := hsend.bound
  have hlen := hsend.length
  have hback : InitEnds (18 + b) (commanded s es ci d r (returned s.par (.lead hcs k) r)) := by
    cases ha : appAbort r with
    | true =>
      rw [show returned s.par (.lead hcs k) r = resume s.par k r from if_pos ha]
      exact (h r (commanded s es ci d r _) hl hs rfl rfl).mono (by omega)
    | false =>
      rw [show returned s.par (.lead hcs k) r = .cmd (.plain k) (.acmd41 hcs) .desel from if_neg (by simp [ha])]
      exact endsWithin_plain h (commanded s es ci d r _) hl hs rfl rfl
  exact (hback.after hran (fun e he => (hsend.fast e he).trans hs) rfl).mono (by omega)

theorem endsWithin_rd4 {k : WordFor} {b : Nat} (h : ∀ w, EndsWithin p (afterWord p k w) b) :
    EndsWithin p (.rd4 k 3 0) (4 + b) := by
  intro s hl hs hp he
  obtain ⟨b0, b1, b2, b3, es, ci, d, hes, hran⟩ := rd4_run hl he
  subst hp
  refine ((h _ (wordRead s es ci d k _) hl hs rfl rfl).after hran (fun e he => ?_) rfl).mono (by rw [hes]; exact le_rfl)
  rw [hes] at he
  fin_cases he <;> exact hs

/-! ### Step by step, from the last (R183 to R190) -/

theorem endsWithin_failed (p : Params) {b : Nat} (hb : 1 ≤ b) : EndsWithin p initFailed b :=
  (endsWithin_initEnd p .unknown false).mono hb

theorem endsWithin_blockLen (p : Params) (fam : Family) : EndsWithin p (.cmd (.plain (.initBlockLen fam)) .cmd16 .desel) 19 := by
  refine endsWithin_plain (b := 1) fun r => ?_
  simp only [resume, afterBlockLen]
  split
  · exact endsWithin_initEnd p fam false
  · exact endsWithin_failed p le_rfl

theorem endsWithin_ocr (p : Params) : EndsWithin p (.cmd (.plain .initOcr) .cmd58 .desel) 41 := by
  refine endsWithin_plain (b := 23) fun r => ?_
  simp only [resume, afterCapacity]
  split
  · refine endsWithin_rd4 (b := 19) fun w => ?_
    simp only [afterWord, afterOcr]
    split
    · exact (endsWithin_initEnd p .sdv2 true).mono (by omega)
    · exact endsWithin_blockLen p .sdv2
  · exact endsWithin_failed p (by omega)

/-- A loop of attempts of `c` exchanges that leaves within `b`. -/
theorem endsWithin_retry {again : Nat → EnginePos} {b c : Nat} (hb : 1 ≤ b)
    (hstep : ∀ left n, EndsWithin p (retryNext left again initFailed) n → b ≤ n → EndsWithin p (again left) (c + n)) (left : Nat) :
    EndsWithin p (again left) (c * (left + 1) + b) := by
  induction left with
  | zero =>
    have h := hstep 0 b (endsWithin_failed p hb) le_rfl
    rwa [Nat.zero_add, Nat.mul_one]
  | succ n ih =>
    have h := hstep (n + 1) _ ih (Nat.le_add_left _ _)
    rwa [Nat.mul_succ, Nat.add_right_comm, Nat.add_comm _ c]

theorem endsWithin_hcs (p : Params) (left : Nat) :
    EndsWithin p (.cmd (.lead true (.initHcs left)) .cmd55 .desel) (36 * (left + 1) + 41) := by
  refine endsWithin_retry (again := fun left => .cmd (.lead true (.initHcs left)) .cmd55 .desel) (by omega)
    (fun left n h hn => endsWithin_lead fun r => ?_) left
  simp only [resume, afterHcs]
  split
  · exact (endsWithin_ocr p).mono hn
  · exact h

theorem endsWithin_loop (p : Params) {cand : Family} (hc : cand = .sdv1 ∨ cand = .mmcv3) (left : Nat) :
    EndsWithin p (callCommand (.initLoop cand left) (loopCmd cand)) (36 * (left + 1) + 19) := by
  refine endsWithin_retry (again := fun left => callCommand (.initLoop cand left) (loopCmd cand)) (by omega)
    (fun left n h hn => ?_) left
  have hback : ∀ r, EndsWithin p (resume p (.initLoop cand left) r) n := fun r => by
    simp only [resume, afterLoop]
    split
    · exact (endsWithin_blockLen p cand).mono hn
    · exact h
  obtain rfl | rfl := hc
  · exact endsWithin_lead hback
  · exact (endsWithin_plain hback).mono (by omega)

theorem endsWithin_probe (hi : 1 ≤ p.retryInit) :
    EndsWithin p (.cmd (.lead false .initProbe) .cmd55 .desel) (36 + (36 * p.retryInit + 19)) := by
  refine endsWithin_lead fun r => ?_
  have hcand : (if probeOk r then Family.sdv1 else .mmcv3) = .sdv1 ∨ (if probeOk r then Family.sdv1 else .mmcv3) = .mmcv3 := by
    split
    · exact .inl rfl
    · exact .inr rfl
  have h := endsWithin_loop p hcand (p.retryInit - 1)
  rwa [Nat.sub_add_cancel hi] at h

theorem endsWithin_version (hi : 1 ≤ p.retryInit) :
    EndsWithin p (.cmd (.plain .initVersion) .cmd8 .desel) (36 * p.retryInit + 73) := by
  refine (endsWithin_plain (b := 36 * p.retryInit + 55) fun r => ?_).mono (by omega)
  simp only [resume, afterVersion]
  split
  · refine (endsWithin_rd4 (b := 36 * p.retryInit + 41) fun w => ?_).mono (by omega)
    simp only [afterWord, afterEcho]
    split
    · have h := endsWithin_hcs p (p.retryInit - 1)
      rwa [Nat.sub_add_cancel hi] at h
    · exact endsWithin_failed p (by omega)
  · exact (endsWithin_probe hi).mono (by omega)

theorem endsWithin_idle (hi : 1 ≤ p.retryInit) (left : Nat) :
    EndsWithin p (.cmd (.plain (.initIdle left)) .cmd0 .desel) (18 * (left + 1) + (36 * p.retryInit + 73)) := by
  refine endsWithin_retry (again := fun left => .cmd (.plain (.initIdle left)) .cmd0 .desel) (by omega)
    (fun left n h hn => endsWithin_plain fun r => ?_) left
  simp only [resume, afterIdleReset]
  split
  · exact (endsWithin_version hi).mono hn
  · exact h

theorem endsWithin_powerUp (hi : 1 ≤ p.retryInit) (hr : 1 ≤ p.retryIdle) (left : Nat) :
    EndsWithin p (.powerUp left) (18 * p.retryIdle + (36 * p.retryInit + 73) + left + 1) := by
  induction left with
  | zero =>
    intro s hl hs hp he
    have h := endsWithin_idle hi (p.retryIdle - 1)
    rw [Nat.sub_add_cancel hr] at h
    exact .exchange (t := powerUpStep 0 s) (engineMove_initAt hl he nofun nofun (by simp only [initStep, he])) rfl hs rfl
      (h (powerUpStep 0 s) hl hs hp (by rw [← hp]; rfl))
  | succ n ih =>
    intro s hl hs hp he
    exact .exchange (t := powerUpStep (n + 1) s) (engineMove_initAt hl he nofun nofun (by simp only [initStep, he])) rfl hs rfl
      (ih (powerUpStep (n + 1) s) hl hs hp rfl)

theorem endsWithin_initDesel (hi : 1 ≤ p.retryInit) (hr : 1 ≤ p.retryIdle) :
    EndsWithin p .initDesel (11 + 18 * p.retryIdle + 36 * p.retryInit + 73) := by
  intro s hl hs hp he
  exact (InitEnds.exchange (t := initDeselStep s) (engineMove_initAt hl he nofun nofun (by simp only [initStep, he])) rfl hs rfl
    (endsWithin_powerUp hi hr 9 (initDeselStep s) hl hs hp rfl)).mono (by omega)

theorem paramsOk_retryIdle {p : Params} (h : paramsOk p = true) : 1 ≤ p.retryIdle := by
  obtain ⟨-, -, hi, -⟩ := of_decide_eq_true h
  exact hi

theorem paramsOk_retryInit {p : Params} (h : paramsOk p = true) : 1 ≤ p.retryInit := by
  obtain ⟨-, -, -, hi, -⟩ := of_decide_eq_true h
  exact hi

/-- The first step of an INIT with no write open is `tinit()`, as it is after the close of one. -/
theorem engineMove_initTinit {s : State} (hpos : s.eng = .launched ∨ s.eng = .initTinit) (hl : s.latch.op = 1)
    (hw : s.wopen = false) : ∃ t, engineMove s = .next (initTinitStep t) ∧ InitFrame s t ∧ t.trace = s.trace := by
  obtain he | he := hpos
  · refine ⟨clearDescriptor s, engineMove_initAt hl he nofun nofun ?_, rfl, rfl⟩
    simp only [initStep, he]
    exact initStart_closed hw
  · exact ⟨s, engineMove_initAt hl he nofun nofun (by simp only [initStep, he]), rfl, rfl⟩

/-- Settles O45. -/
theorem initEndsWithinItsBound : Obligations.InitEndsWithinItsBound := by
  intro s hpos hl hw hp
  obtain ⟨u, hm, hframe, htrace⟩ := engineMove_initTinit hpos hl hw
  have hpar := hframe.par_eq
  have h := endsWithin_initDesel (paramsOk_retryInit hp) (paramsOk_retryIdle hp) (initTinitStep u)
    (hframe.latch_eq ▸ hl) rfl hpar rfl
  obtain ⟨n, es, t, hran, hlen, hslow, hf, hidle, hcsa, hout⟩ := InitEnds.silent hm htrace (hframe.trans rfl) h
  refine ⟨n, t, hran.run, hidle, ?_, ?_, hout.ended, hout.block, ?_⟩
  · rw [hran.newEvents]
    omega
  · rw [hran.newEvents]
    exact hslow
  · rw [InitFrame, hidle, hcsa] at hf
    exact hf

end Sys2Proof.Machine

/-! PROOFS. The families INIT finds for given answers of the card (R192). -/

namespace Sys2Proof.Machine

/-! ### Runs by their number of exchanges and what holds after them -/

/-- After some steps with `n` exchanges, `Q` holds. -/
def Goes (n : Nat) (s : State) (Q : State → Prop) : Prop :=
  ∃ (m : Nat) (es : List BusEvent) (t : State), Ran m es s t ∧ es.length = n ∧ Q t

theorem Goes.trans {m n : Nat} {s : State} {Q R : State → Prop} (h : Goes m s Q) (h' : ∀ t, Q t → Goes n t R) :
    Goes (m + n) s R := by
  obtain ⟨a, es, t, hran, hlen, hq⟩ := h
  obtain ⟨b, fs, u, hran', hlen', hr⟩ := h' t hq
  exact ⟨a + b, es ++ fs, u, hran.trans hran', by rw [List.length_append, hlen, hlen'], hr⟩

theorem Goes.refl {s : State} {Q : State → Prop} (hq : Q s) : Goes 0 s Q :=
  ⟨0, [], s, .refl s, rfl, hq⟩

theorem Goes.exchange {n : Nat} {s t : State} {e : BusEvent} {Q : State → Prop} (h : engineMove s = .next t)
    (ht : t.trace = e :: s.trace) (hr : Goes n t Q) : Goes (n + 1) s Q := by
  obtain ⟨m, es, u, hran, hlen, hq⟩ := hr
  exact ⟨m + 1, e :: es, u, .exchange h ht hran, by rw [List.length_cons, hlen], hq⟩

theorem Goes.silent {n : Nat} {s t : State} {Q : State → Prop} (h : engineMove s = .next t) (ht : t.trace = s.trace)
    (hr : Goes n t Q) : Goes n s Q := by
  obtain ⟨m, es, u, hran, hlen, hq⟩ := hr
  exact ⟨m + 1, es, u, .silent h ht hran, hlen, hq⟩

/-- An INIT at a place, with the answers still to come, the last response, and `OCR`. -/
structure InitAt (p : Params) (pos : EnginePos) (card : List Byte) (r1 : Byte) (w : Word) (s : State) : Prop where
  latch : s.latch.op = 1
  par : s.par = p
  eng : s.eng = pos
  card : s.cardIn = card
  lastR1 : s.lastR1 = r1
  ocr : s.ocr = w

theorem InitAt.moveTo {p : Params} {pos pos' : EnginePos} {card : List Byte} {r1 : Byte} {w : Word} {s : State}
    (h : InitAt p pos card r1 w s) (hpos : pos = pos') : InitAt p pos' card r1 w s :=
  hpos ▸ h

/-- An INIT that found a family. -/
structure InitFound (fam : Family) (blk : Bool) (card : List Byte) (r1 : Byte) (w : Word) (s : State) : Prop where
  eng : s.eng = .idle
  result : s.result = .ok
  family : s.family = fam
  block : s.block = blk
  fast : s.fast = true
  csa : s.csa = false
  card : s.cardIn = card
  lastR1 : s.lastR1 = r1
  ocr : s.ocr = w

/-! ### The stages -/

/-- A card that answers the first poll of a command with a valid response. -/
theorem send_run_answered {s : State} {ret : Ret} {c : CardCmd} {g rest : List Byte} {r : Byte}
    (he : s.eng = .cmd ret c .desel) (hcard : s.cardIn = answers g r ++ rest) (hg : g.length = 8)
    (hr : r.getLsbD 7 = false) :
    ∃ (es : List BusEvent) (d : Bool), es.length = 9 ∧ Ran 10 es s (commanded s es rest d r (returned s.par ret r)) := by
  obtain ⟨k, r', es, ci, d, h, hran⟩ := send_run he
  have hlen := h.length
  obtain ⟨hci, hbytes⟩ := hran.received
  have hninth : (es.map (fun e => e.inp))[8]? = some r := by
    have hpos := h.pos
    have hget := congrArg (fun l => l[8]?) hbytes
    simp only [List.getElem?_take, hcard, answers, hlen] at hget
    rw [if_pos (by simp [hg]), if_pos (by omega), List.getElem?_append_left (by simp [hg]),
      List.getElem?_append_right (by omega), hg] at hget
    exact hget
  obtain rfl : k = 1 := by
    by_contra hk
    have hpos := h.pos
    refine absurd (h.invalid r (List.mem_of_getElem? (i := 0) ?_)) (by rw [hr]; decide)
    rw [List.getElem?_dropLast, if_pos (by simp [hlen]; omega), List.getElem?_drop]
    exact hninth
  obtain rfl : r' = r := by
    have hlast := h.last
    rw [List.getLast?_eq_getElem?, List.length_map, hlen] at hlast
    exact Option.some.inj (hlast.symm.trans hninth)
  obtain rfl : ci = rest := by
    have : (commanded s es ci d r' (returned s.par ret r')).cardIn = ci := rfl
    rw [← this, hci, hcard, hlen]
    exact List.drop_left' (by simp [answers, hg])
  exact ⟨es, d, hlen, hran⟩

section Stages

variable {p : Params} {s : State} {r1 : Byte} {w : Word} {rest : List Byte}

theorem initAt_command {ret : Ret} {c : CardCmd} {g : List Byte} {r : Byte}
    (h : InitAt p (.cmd ret c .desel) (answers g r ++ rest) r1 w s) (hg : g.length = 8) (hr : r.getLsbD 7 = false) :
    Goes 9 s (InitAt p (returned p ret r) rest r w) := by
  obtain ⟨hl, rfl, he, hcard, -, hw⟩ := h
  obtain ⟨es, d, hlen, hran⟩ := send_run_answered he hcard hg hr
  exact ⟨10, es, _, hran, hlen, ⟨hl, rfl, rfl, rfl, rfl, hw⟩⟩

theorem initAt_word {k : WordFor} {b0 b1 b2 b3 : Byte} (h : InitAt p (.rd4 k 3 0) ([b0, b1, b2, b3] ++ rest) r1 w s) :
    Goes 4 s (InitAt p (afterWord p k (b0 ++ b1 ++ b2 ++ b3)) rest r1 (b0 ++ b1 ++ b2 ++ b3)) := by
  obtain ⟨hl, rfl, he, hcard, hr, -⟩ := h
  obtain ⟨c0, c1, c2, c3, es, ci, d, hes, hran⟩ := rd4_run hl he
  obtain ⟨hci, hbytes⟩ := hran.received
  have hci : ci = s.cardIn.drop es.length := hci
  rw [hcard, hes] at hbytes hci
  have hbytes : [c0, c1, c2, c3] = [b0, b1, b2, b3] := by
    rw [List.take_of_length_le (by simp), List.take_left' (by rfl)] at hbytes
    exact hbytes
  simp only [List.cons.injEq, and_true] at hbytes
  obtain ⟨rfl, rfl, rfl, rfl⟩ := hbytes
  exact ⟨4, es, _, hran, by rw [hes]; rfl, ⟨hl, rfl, rfl, hci, hr, rfl⟩⟩

theorem setFast_found (hl : s.latch.op = 1) (he : s.eng = .setFast) (hcsa : s.csa = false) :
    Goes 0 s (InitFound s.family s.block s.cardIn s.lastR1 s.ocr) := by
  refine .silent (t := initSetFastStep s) (engineMove_initAt hl he nofun nofun (by simp only [initStep, he])) rfl ?_
  exact .silent (engineMove_initAt (pos := .fin .ok) (t := finish .ok (initSetFastStep s)) hl rfl nofun nofun rfl) rfl
    (.refl ⟨rfl, rfl, rfl, rfl, rfl, hcsa, rfl, rfl, rfl⟩)

theorem initAt_end {fam : Family} {blk : Bool} {b : Byte} (h : InitAt p (.initEnd fam blk) ([b] ++ rest) r1 w s)
    (hf : fam ≠ .unknown) : Goes 1 s (InitFound fam (decide (fam = .sdv2) && blk) rest r1 w) := by
  obtain ⟨hl, rfl, he, hcard, rfl, rfl⟩ := h
  obtain rfl : s.cardIn.tail = rest := by rw [hcard]; rfl
  refine .exchange (t := initEndStep fam blk s) (engineMove_initAt hl he nofun nofun (by simp only [initStep, he])) rfl ?_
  exact setFast_found (s := initEndStep fam blk s) hl (if_neg hf) rfl

theorem initAt_powerUp {left : Nat} {g : List Byte} (h : InitAt p (.powerUp left) (g ++ rest) r1 w s)
    (hg : g.length = left + 1) :
    Goes (left + 1) s (InitAt p (.cmd (.plain (.initIdle (p.retryIdle - 1))) .cmd0 .desel) rest r1 w) := by
  induction left generalizing s g with
  | zero =>
    obtain ⟨hl, rfl, he, hcard, hr, hw⟩ := h
    obtain ⟨b, rfl⟩ := List.length_eq_one_iff.mp hg
    exact .exchange (t := powerUpStep 0 s) (engineMove_initAt hl he nofun nofun (by simp only [initStep, he])) rfl
      (.refl ⟨hl, rfl, rfl, (by rw [hcard]; rfl : s.cardIn.tail = rest), hr, hw⟩)
  | succ n ih =>
    obtain ⟨hl, rfl, he, hcard, hr, hw⟩ := h
    obtain ⟨b, g, rfl⟩ := List.exists_cons_of_length_eq_add_one hg
    have hat : InitAt s.par (.powerUp n) (g ++ rest) r1 w (powerUpStep (n + 1) s) :=
      ⟨hl, rfl, rfl, (by rw [hcard]; rfl : s.cardIn.tail = g ++ rest), hr, hw⟩
    exact .exchange (engineMove_initAt hl he nofun nofun (by simp only [initStep, he])) rfl (ih hat (by simpa using hg))

theorem valid_of_le_one {r : Byte} (h : r.toNat ≤ 1) : r.getLsbD 7 = false :=
  Nat.testBit_lt_two_pow (by omega)

/-- An application command whose leading command is answered with at most idle. -/
theorem initAt_appCommand {hcs : Bool} {k : Caller} {g g' : List Byte} {l r : Byte}
    (h : InitAt p (.cmd (.lead hcs k) .cmd55 .desel) (answers g l ++ (answers g' r ++ rest)) r1 w s) (hg : g.length = 8)
    (hg' : g'.length = 8) (hl : l.toNat ≤ 1) (hr : r.getLsbD 7 = false) : Goes 18 s (InitAt p (resume p k r) rest r w) := by
  have hlead : returned p (.lead hcs k) l = .cmd (.plain k) (.acmd41 hcs) .desel :=
    if_neg (by simpa [appAbort] using hl)
  exact (initAt_command h hg (valid_of_le_one hl)).trans fun t ht => initAt_command (ht.moveTo hlead) hg' hr

/-- An application command whose leading command is answered with more than idle: its response is the call's (R151). -/
theorem initAt_appRejected {hcs : Bool} {k : Caller} {g : List Byte} {l : Byte}
    (h : InitAt p (.cmd (.lead hcs k) .cmd55 .desel) (answers g l ++ rest) r1 w s) (hg : g.length = 8)
    (hv : l.getLsbD 7 = false) (hl : 1 < l.toNat) : Goes 9 s (InitAt p (resume p k l) rest l w) := by
  have hab : returned p (.lead hcs k) l = resume p k l := if_pos (decide_eq_true hl)
  exact hab ▸ initAt_command h hg hv

/-- Step 1, from a launch with no write open: 11 bytes are ignored. -/
theorem initAt_start {g : List Byte} (he : s.eng = .launched) (hl : s.latch.op = 1) (hw : s.wopen = false)
    (hcard : s.cardIn = g ++ rest) (hg : g.length = 11) :
    Goes 11 s (InitAt s.par (.cmd (.plain (.initIdle (s.par.retryIdle - 1))) .cmd0 .desel) rest s.lastR1 s.ocr) := by
  obtain ⟨b, g, rfl⟩ := List.exists_cons_of_length_eq_add_one hg
  refine .silent (t := initTinitStep (clearDescriptor s))
    (engineMove_initAt hl he nofun nofun (by simp only [initStep, he, initStart_closed hw])) rfl ?_
  refine .exchange (t := initDeselStep (initTinitStep (clearDescriptor s)))
    (engineMove_initAt (pos := .initDesel) hl rfl nofun nofun rfl) rfl ?_
  refine initAt_powerUp (left := 9) ⟨hl, rfl, rfl, ?_, rfl, rfl⟩ (by simpa using hg)
  have htail : s.cardIn.tail = g ++ rest := by rw [hcard]; rfl
  exact htail

end Stages

/-! ### The families (R192) -/

section Families

theorem echoOk_echo (b0 b1 : Byte) : echoOk (b0 ++ b1 ++ 0x01#8 ++ 0xAA#8) = true := by
  refine decide_eq_true ⟨?_, ?_⟩ <;> refine BitVec.eq_of_toNat_eq ?_ <;>
    simp only [BitVec.extractLsb'_toNat, toNat_append_eq, BitVec.toNat_ofNat, Nat.shiftRight_eq_div_pow] <;> omega

theorem ccs_word (b0 b1 b2 b3 : Byte) : ccs (b0 ++ b1 ++ b2 ++ b3) = b0.getLsbD 6 := by
  simp only [ccs, BitVec.getLsbD_append]
  rfl

variable {s : State} {rest : List Byte}

/-- A card that answers the idle reset comes to the version check after 20 exchanges. -/
theorem init_version {g0 g1 : List Byte} (he : s.eng = .launched) (hl : s.latch.op = 1) (hw : s.wopen = false)
    (hcard : s.cardIn = g0 ++ (answers g1 0x01 ++ rest)) (hg0 : g0.length = 11) (hg1 : g1.length = 8) :
    Goes 20 s (InitAt s.par (.cmd (.plain .initVersion) .cmd8 .desel) rest 0x01 s.ocr) :=
  (initAt_start he hl hw hcard hg0).trans fun _ ht => initAt_command ht hg1 rfl

/-- A card that echoes the check pattern and is ready at once comes to its operating-condition word after 64 exchanges. -/
theorem init_sdv2 {g0 g1 g2 g3 g4 g5 : List Byte} {e0 e1 o0 o1 o2 o3 lead : Byte} (he : s.eng = .launched)
    (hl : s.latch.op = 1) (hw : s.wopen = false) (hg0 : g0.length = 11) (hg1 : g1.length = 8) (hg2 : g2.length = 8)
    (hg3 : g3.length = 8) (hg4 : g4.length = 8) (hg5 : g5.length = 8) (hlead : lead.toNat ≤ 1)
    (hcard : s.cardIn = g0 ++ (answers g1 0x01 ++ (answers g2 0x01 ++ ([e0, e1, 0x01, 0xAA] ++ (answers g3 lead
      ++ (answers g4 0x00 ++ (answers g5 0x00 ++ ([o0, o1, o2, o3] ++ rest)))))))) :
    Goes 64 s (InitAt s.par (afterOcr (o0 ++ o1 ++ o2 ++ o3)) rest 0x00 (o0 ++ o1 ++ o2 ++ o3)) := by
  have hword : afterWord s.par .echo (e0 ++ e1 ++ 0x01#8 ++ 0xAA#8)
      = .cmd (.lead true (.initHcs (s.par.retryInit - 1))) .cmd55 .desel := if_pos (echoOk_echo e0 e1)
  have hecho := ((init_version he hl hw hcard hg0 hg1).trans fun _ ht => initAt_command ht hg2 rfl).trans
    fun _ ht => initAt_word (ht.moveTo rfl)
  have hready := hecho.trans fun _ ht => initAt_appCommand (ht.moveTo hword) hg3 hg4 hlead rfl
  exact (hready.trans fun _ ht => initAt_command (ret := .plain .initOcr) (c := .cmd58) (ht.moveTo rfl) hg5 rfl).trans
    fun _ ht => initAt_word (k := .ocr) (ht.moveTo rfl)

/-- A card that rejects the version check comes to the probe after 29 exchanges. -/
theorem init_probe {g0 g1 g2 : List Byte} {rej : Byte} (he : s.eng = .launched) (hl : s.latch.op = 1) (hw : s.wopen = false)
    (hg0 : g0.length = 11) (hg1 : g1.length = 8) (hg2 : g2.length = 8) (hv : rej.getLsbD 7 = false) (hrej : rej ≠ 0x01)
    (hcard : s.cardIn = g0 ++ (answers g1 0x01 ++ (answers g2 rej ++ rest))) :
    Goes 29 s (InitAt s.par (.cmd (.lead false .initProbe) .cmd55 .desel) rest rej s.ocr) := by
  have hback : returned s.par (.plain .initVersion) rej = .cmd (.lead false .initProbe) .cmd55 .desel :=
    if_neg (by simpa [idleR1] using hrej)
  exact (init_version he hl hw hcard hg0 hg1).trans fun _ ht => hback ▸ initAt_command ht hg2 hv

/-- The last stage of a byte-addressed card: CMD16 answered ready, the deselect, fast mode. -/
theorem init_blockLen {p : Params} {fam : Family} {g : List Byte} {r1 b : Byte} {w : Word}
    (h : InitAt p (.cmd (.plain (.initBlockLen fam)) .cmd16 .desel) (answers g 0x00 ++ ([b] ++ rest)) r1 w s)
    (hg : g.length = 8) (hf : fam ≠ .unknown) : Goes 10 s (InitFound fam false rest 0x00 w) := by
  have hend := (initAt_command h hg rfl).trans fun _ ht => initAt_end (ht.moveTo rfl) hf
  rwa [Bool.and_false] at hend

theorem afterProbe_mmcv3 (p : Params) {r : Byte} (h : 1 < r.toNat) :
    resume p .initProbe r = .cmd (.plain (.initLoop .mmcv3 (p.retryInit - 1))) .cmd1 .desel := by
  simp [resume, afterProbe, probeOk, Nat.not_le.mpr h, loopCmd, callCommand]

theorem afterProbe_sdv1 (p : Params) {r : Byte} (h : r.toNat ≤ 1) :
    resume p .initProbe r = .cmd (.lead false (.initLoop .sdv1 (p.retryInit - 1))) .cmd55 .desel := by
  simp [resume, afterProbe, probeOk, h, loopCmd, callCommand]

end Families

/-- Settles O46: block-addressed, then byte-addressed. -/
theorem initFindsVersion2Cards : Obligations.InitFindsVersion2Cards := by
  refine ⟨fun s g0 g1 g2 g3 g4 g5 rest e0 e1 o0 o1 o2 o3 lead g6 he hl hw hg0 hg hlead ho hcard => ?_,
    fun s g0 g1 g2 g3 g4 g5 g6 rest e0 e1 o0 o1 o2 o3 lead g7 he hl hw hg0 hg hlead ho hcard => ?_⟩
  · simp only [List.append_assoc] at hcard
    simp only [List.forall_mem_cons] at hg
    obtain ⟨hg1, hg2, hg3, hg4, hg5, -⟩ := hg
    have hocr : afterOcr (o0 ++ o1 ++ o2 ++ o3) = .initEnd .sdv2 true := if_pos ((ccs_word o0 o1 o2 o3).trans ho)
    obtain ⟨n, es, t, hran, hlen, h⟩ := (init_sdv2 he hl hw hg0 hg1 hg2 hg3 hg4 hg5 hlead hcard).trans
      fun _ ht => initAt_end (ht.moveTo hocr) (by decide)
    exact ⟨n, t, hran.run, h.eng, h.result, h.family, h.block, h.fast, h.csa, h.ocr, h.lastR1, h.card,
      (congrArg List.length hran.newEvents).trans hlen⟩
  · simp only [List.append_assoc] at hcard
    simp only [List.forall_mem_cons] at hg
    obtain ⟨hg1, hg2, hg3, hg4, hg5, hg6, -⟩ := hg
    have hocr : afterOcr (o0 ++ o1 ++ o2 ++ o3) = .cmd (.plain (.initBlockLen .sdv2)) .cmd16 .desel :=
      if_neg (by rw [ccs_word, ho]; decide)
    obtain ⟨n, es, t, hran, hlen, h⟩ := (init_sdv2 he hl hw hg0 hg1 hg2 hg3 hg4 hg5 hlead hcard).trans
      fun _ ht => init_blockLen (ht.moveTo hocr) hg6 (by decide)
    exact ⟨n, t, hran.run, h.eng, h.result, h.family, h.block, h.fast, h.csa, h.ocr, h.lastR1, h.card,
      (congrArg List.length hran.newEvents).trans hlen⟩

/-- Settles O47: MMC v3, then SD v1. -/
theorem initFindsTheOlderFamilies : Obligations.InitFindsTheOlderFamilies := by
  refine ⟨fun s g0 g1 g2 g3 g4 g5 rest rej lead g6 he hl hw hg0 hg hv hrej hlv hlead hcard => ?_,
    fun s g0 g1 g2 g3 g4 g5 g6 g7 rest rej l1 p l2 g8 he hl hw hg0 hg hv hrej hl1 hp hl2 hcard => ?_⟩
  · simp only [List.append_assoc] at hcard
    simp only [List.forall_mem_cons] at hg
    obtain ⟨hg1, hg2, hg3, hg4, hg5, -⟩ := hg
    have hloop := (init_probe he hl hw hg0 hg1 hg2 hv hrej hcard).trans fun _ ht => initAt_appRejected ht hg3 hlv hlead
    have hready := hloop.trans fun _ ht => initAt_command (ht.moveTo (afterProbe_mmcv3 s.par hlead)) hg4 rfl
    obtain ⟨n, es, t, hran, hlen, h⟩ := hready.trans fun _ ht =>
      init_blockLen (fam := .mmcv3) (ht.moveTo rfl) hg5 (by decide)
    exact ⟨n, t, hran.run, h.eng, h.result, h.family, h.block, h.fast, h.card,
      (congrArg List.length hran.newEvents).trans hlen⟩
  · simp only [List.append_assoc] at hcard
    simp only [List.forall_mem_cons] at hg
    obtain ⟨hg1, hg2, hg3, hg4, hg5, hg6, hg7, -⟩ := hg
    have hloop := (init_probe he hl hw hg0 hg1 hg2 hv hrej hcard).trans fun _ ht =>
      initAt_appCommand ht hg3 hg4 hl1 (valid_of_le_one hp)
    have hready := hloop.trans fun _ ht => initAt_appCommand (ht.moveTo (afterProbe_sdv1 s.par hp)) hg5 hg6 hl2 rfl
    obtain ⟨n, es, t, hran, hlen, h⟩ := hready.trans fun _ ht =>
      init_blockLen (fam := .sdv1) (ht.moveTo rfl) hg7 (by decide)
    exact ⟨n, t, hran.run, h.eng, h.result, h.family, h.block, h.fast, h.card,
      (congrArg List.length hran.newEvents).trans hlen⟩

end Sys2Proof.Machine

/-! PROOFS. The host's header checks and timer divisor (45_host_contract.md section 2: R281 to R284). -/

namespace Sys2Proof.Machine

/-! ### The header (R281 to R283) -/

/-- A header byte's value. -/
def headerNat (h : List Byte) (i : Nat) : Nat := (h.getD i 0).toNat

theorem headerNat_lt (h : List Byte) (i : Nat) : headerNat h i < 2 ^ 8 := (h.getD i 0).isLt

theorem field16_toNat (h : List Byte) (i : Nat) : (field16 h i).toNat = headerNat h i + 2 ^ 8 * headerNat h (i + 1) := by
  rw [field16, toNat_append_eq, Nat.mul_comm, Nat.add_comm]
  rfl

theorem field32_toNat (h : List Byte) (i : Nat) : (field32 h i).toNat
    = headerNat h i + 2 ^ 8 * headerNat h (i + 1) + 2 ^ 16 * headerNat h (i + 2) + 2 ^ 24 * headerNat h (i + 3) := by
  have hb : ∀ k, (headerByte h k).toNat = headerNat h k := fun _ => rfl
  simp only [field32, toNat_append_eq, hb]
  omega

theorem tagAt_eq_iff (h : List Byte) (i : Nat) (a b c d : Byte) : tagAt h i = [a, b, c, d] ↔
    headerNat h i = a.toNat ∧ headerNat h (i + 1) = b.toNat ∧ headerNat h (i + 2) = c.toNat ∧ headerNat h (i + 3) = d.toNat := by
  have hb : ∀ k (x : Byte), headerByte h k = x ↔ headerNat h k = x.toNat := fun k x => BitVec.toNat_inj.symm
  simp only [tagAt, List.cons.injEq, and_true, hb]

theorem field16_eq_iff (h : List Byte) (i : Nat) {v : BitVec 16} (hv : v.toNat < 2 ^ 8) :
    field16 h i = v ↔ headerNat h i = v.toNat ∧ headerNat h (i + 1) = 0 := by
  have h0 := headerNat_lt h i
  rw [← BitVec.toNat_inj, field16_toNat]
  omega

theorem field32_eq_iff (h : List Byte) (i : Nat) {v : Word} (hv : v.toNat < 2 ^ 8) :
    field32 h i = v ↔ headerNat h i = v.toNat ∧ headerNat h (i + 1) = 0 ∧ headerNat h (i + 2) = 0
      ∧ headerNat h (i + 3) = 0 := by
  have h0 := headerNat_lt h i
  rw [← BitVec.toNat_inj, field32_toNat]
  omega

/-- The header checks, byte by byte (R282). -/
def HeaderBytes (h : List Byte) : Prop :=
  44 ≤ h.length
    ∧ headerNat h 0 = 0x52 ∧ headerNat h 1 = 0x49 ∧ headerNat h 2 = 0x46 ∧ headerNat h 3 = 0x46
    ∧ headerNat h 8 = 0x57 ∧ headerNat h 9 = 0x41 ∧ headerNat h 10 = 0x56 ∧ headerNat h 11 = 0x45
    ∧ headerNat h 12 = 0x66 ∧ headerNat h 13 = 0x6D ∧ headerNat h 14 = 0x74 ∧ headerNat h 15 = 0x20
    ∧ headerNat h 16 = 16 ∧ headerNat h 17 = 0 ∧ headerNat h 18 = 0 ∧ headerNat h 19 = 0
    ∧ headerNat h 20 = 1 ∧ headerNat h 21 = 0 ∧ headerNat h 22 = 1 ∧ headerNat h 23 = 0
    ∧ 8000 ≤ headerNat h 24 + 2 ^ 8 * headerNat h 25 + 2 ^ 16 * headerNat h 26 + 2 ^ 24 * headerNat h 27
    ∧ headerNat h 24 + 2 ^ 8 * headerNat h 25 + 2 ^ 16 * headerNat h 26 + 2 ^ 24 * headerNat h 27 ≤ 10000
    ∧ headerNat h 34 = 8 ∧ headerNat h 35 = 0

theorem headerValid_iff (h : List Byte) : headerValid h = true ↔ HeaderBytes h := by
  rw [headerValid, decide_eq_true_iff, tagAt_eq_iff, tagAt_eq_iff, tagAt_eq_iff, field32_eq_iff h 16 (by decide),
    field16_eq_iff h 20 (by decide), field16_eq_iff h 22 (by decide), field16_eq_iff h 34 (by decide), field32_toNat]
  simp only [and_assoc]
  rfl

/-- Settles O59. -/
theorem loadHeaderChecksEveryField : Obligations.LoadHeaderChecksEveryField := by
  intro h
  unfold loadHeader
  by_cases hv : headerValid h = true
  · rw [if_pos hv, field32_toNat]
    exact (if_pos ((headerValid_iff h).mp hv)).symm
  · rw [if_neg hv]
    exact (if_neg fun hb => hv ((headerValid_iff h).mpr hb)).symm

/-! ### The divisor (R284) -/

theorem timerDivisor_eq_some_iff {fTclk rate d : Nat} : timerDivisor fTclk rate = some d ↔
    (2 * fTclk + rate) / (2 * rate) = d + 1 ∧ d ≤ 0xFFFF := by
  unfold timerDivisor
  dsimp only
  split
  · rw [Option.some.injEq]; omega
  · simp only [reduceCtorEq, false_iff]; omega

/-- A period is the nearest exactly when it is the quotient. -/
theorem period_eq_iff {fTclk rate n : Nat} (hr : 0 < rate) : (2 * fTclk + rate) / (2 * rate) = n ↔
    2 * n * rate ≤ 2 * fTclk + rate ∧ 2 * fTclk < 2 * n * rate + rate := by
  rw [Nat.div_eq_iff (by omega), show 2 * n * rate = n * (2 * rate) by ring]
  omega

theorem decode_setTdiv (v : Word) : decode (.access (wr 0x34 v)) = .ok (.wrTdiv .w32 v) := by
  simp [decode, decodeAccess, wr, Access.trim, decodeRegister]

theorem hostMove_setTdiv (v : Word) (s : State) :
    hostMove (wr 0x34 v) s = .next { s with tdiv := v.extractLsb' 0 16, resp := .done } :=
  hostMove_decoded (decode_setTdiv v) s

/-- Settles O60. -/
theorem timerDivisorIsTheNearest : Obligations.TimerDivisorIsTheNearest := by
  refine ⟨fun fTclk rate d h => ?_, fun fTclk rate d hd h1 h2 => ?_, fun fTclk h s d hv hdiv => ?_⟩
  · obtain ⟨hq, hd⟩ := timerDivisor_eq_some_iff.mp h
    have hr : 0 < rate := Nat.pos_of_ne_zero fun h0 => by simp [h0] at hq
    obtain ⟨hle, hlt⟩ := (period_eq_iff hr).mp hq
    exact ⟨hd, hle, hlt.le⟩
  · have hr : 0 < rate := Nat.pos_of_ne_zero fun h0 => by
      rw [h0] at h1 h2
      omega
    exact timerDivisor_eq_some_iff.mpr ⟨(period_eq_iff hr).mpr ⟨h1.le, h2⟩, hd⟩
  · have hd := (timerDivisor_eq_some_iff.mp hdiv).2
    have hmoves : headerAccesses fTclk h = [wr 0x34 (BitVec.ofNat 32 d), audioStop] := by
      rw [headerAccesses, if_pos hv, hdiv]
    have hdivisor : moveStep (.host (wr 0x34 (BitVec.ofNat 32 d))) s = .next _ := hostMove_setTdiv _ s
    have hstop : moveStep (.host audioStop) { s with tdiv := (BitVec.ofNat 32 d).extractLsb' 0 16, resp := .done } = .next _ :=
      hostMove_setActrl 0 _
    refine ⟨_, by rw [hmoves, List.map_cons, runMoves_cons _ _ hdivisor]; exact runMoves_cons _ _ hstop, ?_, rfl, rfl, rfl⟩
    show ((BitVec.ofNat 32 d).extractLsb' 0 16).toNat = d
    rw [BitVec.extractLsb'_toNat, BitVec.toNat_ofNat]
    omega

end Sys2Proof.Machine

/-! PROOFS. The filesystem's READs step by step beside the host (R290): how many bytes a running READ has stored, and what each
access of a call does. -/

namespace Sys2Proof.Machine

/-! ### How far a READ has come -/

/-- How many bytes of the packet a READ keeps (R215). -/
def keptCount (l : Latches) : Nat := if l.den then l.cnt.toNat else 0

/-- How many bytes a READ that ends with `r` has stored. -/
def storedAtEnd (l : Latches) (r : Result) : Nat := if r = .ok then keptCount l else 0

/-- How many bytes the latched READ has stored at a place; none at a place that is not READ's. -/
def storedAt (l : Latches) (r : Result) (pos : EnginePos) : Option Nat :=
  match pos with
  | .idle => some (storedAtEnd l r)
  | .launched => some 0
  | .readCheckOpen => some 0
  | .readCheckSum => some 0
  | .readCheckRange => some 0
  | .cmd (.plain .read) _ _ => some 0
  | .token _ => some 0
  | .packet j => some (min (j - l.off.toNat) (keptCount l))
  | .desel r => some (storedAtEnd l r)
  | .fin r => some (storedAtEnd l r)
  | _ => none

def storedBytes (s : State) : Option Nat := storedAt s.latch s.result s.eng

/-- The latched operation is a READ inside its sector and inside block memory. -/
structure ReadLatched (s : State) : Prop where
  op : s.latch.op = 2
  sum : s.latch.off.toNat + s.latch.cnt.toNat ≤ 512
  dest : DestInside s

/-- Nothing outside the transport, block memory, `LASTR1`, `RESULT` and the sequencer position changed. -/
def ReadFrame (s t : State) : Prop :=
  t = { s with csa := t.csa, lastR1 := t.lastR1, result := t.result, eng := t.eng, mem := t.mem, trace := t.trace,
               cardIn := t.cardIn, dout := t.dout }

theorem storesByte_of_not_packet {s : State} (h : ∀ j, s.eng ≠ .packet j) : storesByte s = false := by
  unfold storesByte
  split
  · next he _ => exact absurd he (h _)
  · rfl

theorem storesByte_packet {s : State} {j : Nat} (hl : s.latch.op = 2) (he : s.eng = .packet j) :
    storesByte s = true ↔ PacketByteKept s.latch j := by
  have hi : engineInstr s = some (launchedInstr s.latch) := by unfold engineInstr; rw [he]
  unfold storesByte
  rw [he, hi, launchedInstr_read _ hl]
  cases hd : s.latch.den
  · simp [PacketByteKept, hd]
  · simp [PacketByteKept, hd, storeAddress]

/-- What one engine step of a READ that has stored `k` bytes does. -/
inductive ReadStepped (s t : State) (k : Nat) : Prop
  | silent (hs : storesByte s = false) (hk : storedBytes t = some k) (hmem : ∀ x, memRead t x = memRead s x)
  | stored (hs : storesByte s = true) (hlt : k < keptCount s.latch) (hk : storedBytes t = some (k + 1))
      (hbyte : memRead t (s.latch.addr.toNat + k) = cardByte s)
      (hmem : ∀ x, x ≠ s.latch.addr.toNat + k → memRead t x = memRead s x)

theorem ReadStepped.of_mem_eq {s t : State} {k : Nat} (hj : ∀ j, s.eng ≠ .packet j) (hk : storedBytes t = some k)
    (hm : t.mem = s.mem) (he : t.epoch = s.epoch) : ReadStepped s t k :=
  .silent (storesByte_of_not_packet hj) hk fun x => memRead_congr hm he x

theorem read_packet_stepped {s : State} {j : Nat} (h : ReadLatched s) (he : s.eng = .packet j) :
    ∃ t, engineMove s = .next t ∧ ReadFrame s t ∧ ReadStepped s t (min (j - s.latch.off.toNat) (keptCount s.latch)) := by
  obtain ⟨m, hm, hstored⟩ := packet_move h.op h.dest he
  have hsum := h.sum
  refine ⟨_, hm, rfl, ?_⟩
  by_cases hk : PacketByteKept s.latch j
  · have hkept : keptCount s.latch = s.latch.cnt.toNat := if_pos hk.1
    obtain ⟨-, hoff, hlt⟩ := id hk
    have hmin : min (j - s.latch.off.toNat) (keptCount s.latch) = j - s.latch.off.toNat := by omega
    rw [hmin]
    refine .stored ((storesByte_packet h.op he).mpr hk) (by omega) ?_ (hstored.kept hk) fun x hx => hstored.frame x fun h => hx h.2
    rw [if_pos (by omega)]
    show some (min (j + 1 - s.latch.off.toNat) (keptCount s.latch)) = _
    rw [Option.some.injEq]
    omega
  · have hno : storesByte s = false := by
      rw [← Bool.not_eq_true, storesByte_packet h.op he]
      exact hk
    refine .silent hno ?_ fun x => hstored.frame x fun h => hk h.1
    have hcount : ¬ (s.latch.off.toNat ≤ j ∧ j < s.latch.off.toNat + keptCount s.latch) := by
      unfold PacketByteKept at hk
      unfold keptCount
      split <;> grind
    split
    · show some (min (j + 1 - s.latch.off.toNat) (keptCount s.latch)) = _
      rw [Option.some.injEq]
      omega
    · have hle : keptCount s.latch ≤ s.latch.cnt.toNat := by unfold keptCount; split <;> omega
      show some (keptCount s.latch) = _
      rw [Option.some.injEq]
      omega

theorem storedBytes_eq {s t : State} (hl : t.latch = s.latch) : storedBytes t = storedAt s.latch t.result t.eng := by
  rw [storedBytes, hl]

theorem afterReadCmd_stored (l : Latches) (r : Result) (p : Params) (b : Byte) :
    storedAt l r (afterReadCmd p b) = some 0 := by
  unfold afterReadCmd
  split <;> rfl

/-- Inside CMD17 a READ has stored nothing. -/
theorem sendStep_stored (c : CardCmd) (ph : CmdPhase) (s : State) (r : Result) :
    storedAt s.latch r (sendStep (.plain .read) c ph s).eng = some 0 := by
  have hdone : storedAt s.latch r (returned s.par (.plain .read) (cardByte s)) = some 0 := afterReadCmd_stored _ _ _ _
  cases ph with
  | desel | sel | flush => rfl
  | byte k =>
    simp only [sendStep, frameByteStep]
    split <;> rfl
  | poll left =>
    cases left with
    | zero => rw [sendStep, pollStep_zero]; exact hdone
    | succ n =>
      cases hv : (cardByte s).getLsbD 7
      · rw [sendStep, pollStep_valid _ _ _ hv]; exact hdone
      · rw [sendStep, pollStep_invalid _ _ _ hv]; rfl

theorem storedAt_packet_zero (l : Latches) (r : Result) : storedAt l r (.packet 0) = some 0 := by
  simp [storedAt]

theorem refuseIf_stepped {s : State} {c : Bool} {r : Result} {p : EnginePos} (hj : ∀ j, s.eng ≠ .packet j) (hr : r ≠ .ok)
    (hp : storedAt s.latch s.result p = some 0) :
    ReadFrame s (refuseIf c r p s) ∧ ReadStepped s (refuseIf c r p s) 0 := by
  cases c with
  | true =>
    rw [refuseIf_true _ _ _ rfl]
    exact ⟨rfl, .of_mem_eq hj (congrArg some (if_neg hr)) rfl rfl⟩
  | false =>
    rw [refuseIf_false _ _ _ rfl]
    exact ⟨rfl, .of_mem_eq hj hp rfl rfl⟩

/-- One engine step of a READ, from any of its places. -/
theorem read_stepped {s : State} {k : Nat} (h : ReadLatched s) (hk : storedBytes s = some k) :
    ∃ t, engineMove s = .next t ∧ ReadFrame s t ∧ ReadStepped s t k := by
  have hl := h.op
  unfold storedBytes storedAt at hk
  split at hk
  case h_1 he =>
    refine ⟨s, engineMove_idle s he, rfl, .of_mem_eq (by simp [he]) ?_ rfl rfl⟩
    rw [storedBytes, he]
    exact hk
  case h_2 he =>
    cases hk
    exact ⟨_, engineMove_readLaunched hl he, refuseIf_stepped (by simp [he]) nofun rfl⟩
  case h_3 he =>
    cases hk
    exact ⟨_, engineMove_readCheckOpen hl he, refuseIf_stepped (by simp [he]) nofun rfl⟩
  case h_4 he =>
    cases hk
    exact ⟨_, engineMove_readCheckSum hl he, refuseIf_stepped (by simp [he]) nofun rfl⟩
  case h_5 he =>
    cases hk
    exact ⟨_, engineMove_readCheckRange hl he, refuseIf_stepped (by simp [he]) nofun rfl⟩
  case h_6 c ph he =>
    cases hk
    have hframe := cardCommandStep_frame c s
    rw [cardCommandStep_at he] at hframe
    refine ⟨_, engineMove_cmd s _ c ph he, ?_, .of_mem_eq (by simp [he]) ?_ (by rw [hframe]) (by rw [hframe])⟩
    · unfold ReadFrame
      rw [hframe]
    · rw [storedBytes_eq (by rw [hframe])]
      exact sendStep_stored c ph s _
  case h_7 left he =>
    cases hk
    refine ⟨_, (engineMove_token hl he).trans (congrArg _ (tokenStep_eq left s)), rfl, .of_mem_eq (by simp [he]) ?_ rfl rfl⟩
    split
    · split <;> rfl
    · split
      · exact storedAt_packet_zero s.latch s.result
      · rfl
  case h_8 j he =>
    cases hk
    exact read_packet_stepped h he
  case h_9 r he =>
    cases hk
    exact ⟨_, engineMove_readDesel hl he, rfl, .of_mem_eq (by simp [he]) rfl rfl rfl⟩
  case h_10 r he =>
    cases hk
    exact ⟨_, engineMove_readFin hl he, rfl, .of_mem_eq (by simp [he]) rfl rfl rfl⟩
  case h_11 => cases hk

end Sys2Proof.Machine

/-! PROOFS. A filesystem call's accesses (R290): where a call is in its pieces, and what its next step brings to block memory. -/

namespace Sys2Proof.Machine

/-! ### The accesses of a READ piece and of a copied byte -/

theorem decode_setArg0 (v : Word) : decode (.access (wr 0x04 v)) = .ok (.arg0 (.write .w32 v)) := by
  simp [decode, decodeAccess, wr, Access.trim, decodeRegister]

theorem decode_setArg1 (v : Word) : decode (.access (wr 0x08 v)) = .ok (.arg1 (.write .w32 v)) := by
  simp [decode, decodeAccess, wr, Access.trim, decodeRegister]

theorem decode_setAddr (v : Word) : decode (.access (wr 0x0C v)) = .ok (.addr (.write .w32 v)) := by
  simp [decode, decodeAccess, wr, Access.trim, decodeRegister]

theorem decode_setCmd (v : Word) : decode (.access (wr 0x00 v)) = .ok (.wrCmd .w32 v) := by
  simp [decode, decodeAccess, wr, Access.trim, decodeRegister]

theorem hostMove_setArg0 (v : Word) (s : State) : hostMove (wr 0x04 v) s = .next { s with arg0 := v, resp := .done } :=
  hostMove_decoded (decode_setArg0 v) s

theorem hostMove_setArg1 (o c : BitVec 10) (s : State) :
    hostMove (wr 0x08 (arg1Word o c)) s = .next { s with argOffset := o, argCount := c, resp := .done } := by
  rw [hostMove_decoded (decode_setArg1 _)]
  have h : exec (.arg1 (.write .w32 (arg1Word o c))) s = .next { s with
    argOffset := (arg1Word o c).extractLsb' 0 10, argCount := (arg1Word o c).extractLsb' 16 10, resp := .done } := rfl
  rw [h, arg1Word_offset, arg1Word_count]

theorem hostMove_setAddr (a : BAddr) (s : State) :
    hostMove (wr 0x0C (a.setWidth 32)) s = .next { s with addr := a, resp := .done } := by
  rw [hostMove_decoded (decode_setAddr _)]
  have h : exec (.addr (.write .w32 (a.setWidth 32))) s
    = .next { s with addr := (a.setWidth 32).extractLsb' 0 16, resp := .done } := rfl
  rw [h, setWidth_extract_addr]

theorem hostMove_launch (v : Word) {s : State} (he : s.eng = .idle) :
    hostMove (wr 0x00 v) s = .next { s with
      cmdOp := v.extractLsb' 0 4, cmdDen := v.getLsbD 8, latch := capture v s, eng := .launched, resp := .done } := by
  have hb : busy s = false := by simp [busy, he]
  rw [hostMove_decoded (decode_setCmd v)]
  have h : exec (.wrCmd .w32 v) s = .next (respond .done (writeCmd v s)) := rfl
  rw [h, writeCmd_idle v hb]
  rfl

/-- A copied byte inside block memory is stored there. -/
theorem hostMove_copy {a : Nat} (b : Byte) {s : State} (ha : a < bmemSize s.par) (ha16 : a < 2 ^ 16) :
    ∃ m, hostMove (wrb a b) s = .next { s with mem := m, resp := .done }
      ∧ memRead { s with mem := m } a = b ∧ ∀ x, x ≠ a → memRead { s with mem := m } x = memRead s x := by
  have hoff : (BitVec.ofNat 17 (0x10000 + a)).toNat = 0x10000 + a := by
    rw [BitVec.toNat_ofNat, Nat.mod_eq_of_lt (by omega)]
  have hbyte : (Width.w8.trim (b.setWidth 32)).extractLsb' 0 8 = b := by
    ext i hi
    simp [Width.trim, hi, show i < 32 by omega]
  have hacc : windowAccepts s.par .w8 a = true := decide_eq_true ha
  have hmove : hostMove (wrb a b) s = .next (respond .done (memWrite a b s)) := by
    rw [wrb, hostMove_window _ (by rw [hoff]; omega), hoff, Nat.add_sub_cancel_left]
    have h : windowAccess a (.write .w8 (Width.w8.trim (b.setWidth 32))) s
      = respond .done (memWrite a ((Width.w8.trim (b.setWidth 32)).extractLsb' 0 8) s) := if_pos hacc
    rw [hbyte] at h
    exact congrArg _ h
  have hread : ∀ x, memRead { s with mem := (memWrite a b s).mem } x = memRead (memWrite a b s) x :=
    memRead_congr rfl (memWrite_epoch a b s).symm
  refine ⟨(memWrite a b s).mem, ?_, (hread a).trans (memRead_memWrite_same s a b ha),
    fun x hx => (hread x).trans (memRead_memWrite_ne s a x b hx)⟩
  rw [hmove, memWrite_frame]
  rfl

/-! ### Where a call is -/

/-- The lines of a READ piece from its launch on. -/
def launchLines (target : Option Nat) : List HostLine :=
  [.access (wr 0x00 (if target.isSome then 0x102 else 0x2)), waitIdle, .result]

/-- The lines of a READ piece from its destination on. -/
def addressLines (target : Option Nat) (done : Nat) : List HostLine :=
  match target with
  | some a => .access (wr 0x0C ((BitVec.ofNat 16 (a + done)).setWidth 32)) :: launchLines target
  | none => launchLines target

/-- The lines of a READ piece from its offset and count on. -/
def operandLines (target : Option Nat) (done off count : Nat) : List HostLine :=
  .access (wr 0x08 (arg1Word (BitVec.ofNat 10 off) (BitVec.ofNat 10 count))) :: addressLines target done

theorem pieceLines_eq (target : Option Nat) (done : Nat) (sector : Word) (off count : Nat) :
    pieceLines target done sector off count = .access (wr 0x04 sector) :: operandLines target done off count := by
  cases target <;> rfl

/-- The piece a call is at stays inside its sector and inside what the call wants (R290). -/
structure PieceFits (f : FsRun) (off : Nat) : Prop where
  sector : off + f.count ≤ 512
  want : f.done + f.count ≤ f.want

/-- The operand registers hold the piece's offset and count. -/
structure OperandsSet (s : State) (f : FsRun) (off : Nat) : Prop where
  offset : s.argOffset = BitVec.ofNat 10 off
  count : s.argCount = BitVec.ofNat 10 f.count

/-- The latched READ is the piece's. -/
structure ReadFor (s : State) (f : FsRun) : Prop where
  latched : ReadLatched s
  kept : keptCount s.latch = if f.target.isSome then f.count else 0
  addr : ∀ a, f.target = some a → s.latch.addr.toNat = a + f.done
  want : f.done + f.count ≤ f.want

/-- A call is between two pieces or at a line of one, whose READ has stored `k` bytes. -/
inductive CallAt (s : State) (f : FsRun) : Nat → Prop
  | between (he : s.eng = .idle) (hl : f.lines = []) : CallAt s f 0
  | copy (a : Nat) (b : Byte) (he : s.eng = .idle) (ht : f.target = some a) (hl : f.lines = [.access (wrb (a + f.done) b)])
      (hc : f.count = 1) (hd : f.done < f.want) : CallAt s f 0
  | sector (sector : Word) (off : Nat) (he : s.eng = .idle) (hp : PieceFits f off)
      (hl : f.lines = pieceLines f.target f.done sector off f.count) : CallAt s f 0
  | operands (off : Nat) (he : s.eng = .idle) (hp : PieceFits f off)
      (hl : f.lines = operandLines f.target f.done off f.count) : CallAt s f 0
  | address (a off : Nat) (he : s.eng = .idle) (hp : PieceFits f off) (ho : OperandsSet s f off) (ht : f.target = some a)
      (hl : f.lines = addressLines f.target f.done) : CallAt s f 0
  | launch (off : Nat) (he : s.eng = .idle) (hp : PieceFits f off) (ho : OperandsSet s f off)
      (ha : ∀ a, f.target = some a → s.addr = BitVec.ofNat 16 (a + f.done)) (hl : f.lines = launchLines f.target) :
      CallAt s f 0
  | wait (k : Nat) (hr : ReadFor s f) (hk : storedBytes s = some k) (hl : f.lines = [waitIdle, .result]) : CallAt s f k
  | result (k : Nat) (he : s.eng = .idle) (hr : ReadFor s f) (hk : storedBytes s = some k) (hl : f.lines = [.result]) :
      CallAt s f k

/-- How many bytes a call has brought to block memory when its piece has stored `k`. -/
def FsRun.brought (f : FsRun) (k : Nat) : Nat := if f.target.isSome then f.done + k else 0

/-- What a step of a call does to block memory: nothing, or it copies one byte. -/
inductive Brings (s t : State) (f f' : FsRun) (k k' : Nat) : Prop
  | nothing (hc : f.copies = []) (hb : f'.brought k' = f.brought k) (hmem : ∀ x, memRead t x = memRead s x)
  | byte (a : Nat) (b : Byte) (ht : f.target = some a) (hd : f.done < f.want) (hc : f.copies = [b]) (hk : k = 0)
      (hb : f'.brought k' = f.done + 1) (hbyte : memRead t (a + f.done) = b)
      (hmem : ∀ x, x ≠ a + f.done → memRead t x = memRead s x)

/-- A call's step changes the operand registers, the launch's registers, block memory and the host port's answer only. -/
def CallFrame (s t : State) : Prop :=
  t = { s with arg0 := t.arg0, argOffset := t.argOffset, argCount := t.argCount, addr := t.addr, cmdOp := t.cmdOp,
               cmdDen := t.cmdDen, latch := t.latch, eng := t.eng, mem := t.mem, resp := t.resp }

/-- What one step of a call does. -/
structure CallStepped (s : State) (f : FsRun) (k : Nat) (t : State) (f' : FsRun) (k' : Nat) : Prop where
  frame : CallFrame s t
  at_ : CallAt t f' k'
  target : f'.target = f.target
  want : f'.want = f.want
  done : f'.done ≤ f'.want
  brings : Brings s t f f' k k'

/-- A call's target lies in the buffers. -/
structure CallFits (s : State) (f : FsRun) : Prop where
  params : paramsOk s.par = true
  target : ∀ a, f.target = some a → a + f.want ≤ 2 * s.par.bufSize
  done : f.done ≤ f.want

theorem step_of_cons {f : FsRun} {s : State} {l : HostLine} {ls : List HostLine} (hl : f.lines = l :: ls) :
    f.step s = ((HostRun.host ⟨s, l :: ls, []⟩).s,
      f.afterAccess (HostRun.host ⟨s, l :: ls, []⟩).lines (HostRun.host ⟨s, l :: ls, []⟩).values) := by
  unfold FsRun.step
  rw [hl]

theorem step_access {f : FsRun} {s t : State} {r : HostReq} {ls : List HostLine} (hl : f.lines = .access r :: ls)
    (hm : hostMove r s = .next t) (ht : t.resp = .done) : f.step s = (t, f.afterAccess ls []) := by
  rw [step_of_cons hl]
  simp [HostRun.host, HostLine.req, hm, outcomeState, HostLine.repeats, HostLine.assigns, ht, HostResp.value]

/-- An access that is not the last of its piece. -/
theorem step_access_goes_on {f : FsRun} {s t : State} {r : HostReq} {l : HostLine} {ls : List HostLine}
    (hl : f.lines = .access r :: l :: ls) (hm : hostMove r s = .next t) (ht : t.resp = .done) :
    f.step s = (t, { f with lines := l :: ls }) :=
  step_access hl hm ht

/-- A step that brings nothing and keeps the call's place in its stream. -/
theorem CallStepped.of_setup {s t : State} {f : FsRun} {ls : List HostLine} {k : Nat} (hfit : CallFits s f) (hframe : CallFrame s t)
    (hc : f.copies = []) (hmem : t.mem = s.mem) (h : CallAt t { f with lines := ls } k) :
    CallStepped s f k t { f with lines := ls } k where
  frame := hframe
  at_ := h
  target := rfl
  want := rfl
  done := hfit.done
  brings := .nothing hc rfl fun x => memRead_congr hmem (by rw [CallFrame] at hframe; rw [hframe]) x

theorem copies_of_nil {f : FsRun} (hl : f.lines = []) : f.copies = [] := by
  unfold FsRun.copies
  rw [hl]

theorem copies_of_result {f : FsRun} (hl : f.lines = [.result]) : f.copies = [] := by
  unfold FsRun.copies
  rw [hl]

/-- Only the one line of a copied byte is a byte store; a READ's lines are more. -/
theorem copies_of_cons_cons {f : FsRun} {l l' : HostLine} {ls : List HostLine} (hl : f.lines = l :: l' :: ls) :
    f.copies = [] := by
  unfold FsRun.copies
  rw [hl]
  split
  · next h => cases h
  · rfl

theorem copies_of_copy {f : FsRun} {a : Nat} {b : Byte} (hl : f.lines = [.access (wrb a b)]) : f.copies = [b] := by
  unfold FsRun.copies
  rw [hl]
  have hb : (b.setWidth 32).extractLsb' 0 8 = b := by
    ext i hi
    simp [hi, show i < 32 by omega]
  exact congrArg (fun x => [x]) hb

/-! ### The steps -/

section Steps

variable {s : State} {f : FsRun} (hfit : CallFits s f)
include hfit

theorem call_between_stepped (he : s.eng = .idle) (hl : f.lines = []) (ho : f.over = false) :
    CallStepped s f 0 (f.step s).1 (f.step s).2 0 := by
  have hstep : f.step s = (s, f.takePiece) := by
    unfold FsRun.step
    rw [hl]
  have hne : f.pieces ≠ [] ∧ f.done ≠ f.want := by
    simpa [FsRun.over, hl] using ho
  obtain ⟨hpieces, hdone⟩ := hne
  have hlt : f.done < f.want := Nat.lt_of_le_of_ne hfit.done hdone
  rw [hstep]
  have hsame : ∀ f' : FsRun, f'.brought 0 = f.brought 0 → Brings s s f f' 0 0 := fun f' hb =>
    .nothing (copies_of_nil hl) hb fun _ => rfl
  unfold FsRun.takePiece
  split
  · next h => exact absurd h hpieces
  · next sector offset count rest h =>
    have hcount := pieceCount_le_left offset count (f.want - f.done)
    refine ⟨rfl, .sector sector (pieceOffset offset) he ⟨pieceOffset_add_pieceCount_le _ _ _, ?_⟩ rfl, rfl, rfl, hfit.done,
      hsame _ rfl⟩
    show f.done + pieceCount offset count (f.want - f.done) ≤ f.want
    omega
  · next b rest h =>
    split
    · next a ht => exact ⟨rfl, .copy a b he ht rfl rfl hlt, rfl, rfl, hfit.done, hsame _ rfl⟩
    · next ht =>
      refine ⟨rfl, .between he hl, rfl, rfl, hlt, hsame _ ?_⟩
      simp [FsRun.brought, ht]

theorem call_copy_stepped {a : Nat} {b : Byte} (he : s.eng = .idle) (ht : f.target = some a)
    (hl : f.lines = [.access (wrb (a + f.done) b)]) (hc : f.count = 1) (hd : f.done < f.want) :
    CallStepped s f 0 (f.step s).1 (f.step s).2 0 := by
  have htarget := hfit.target a ht
  have hsize := bufSize_range hfit.params
  obtain ⟨m, hm, hbyte, hmem⟩ := hostMove_copy (a := a + f.done) b (s := s) (by unfold bmemSize; omega) (by omega)
  rw [step_access hl hm rfl]
  have hnext : f.afterAccess [] [] = { f with lines := [], done := f.done + f.count } := rfl
  rw [hnext, hc]
  exact ⟨rfl, .between he rfl, rfl, rfl, hd, .byte a b ht hd (copies_of_copy hl) rfl (by simp [FsRun.brought, ht]) hbyte hmem⟩

theorem call_sector_stepped {sector : Word} {off : Nat} (he : s.eng = .idle) (hp : PieceFits f off)
    (hl : f.lines = pieceLines f.target f.done sector off f.count) :
    CallStepped s f 0 (f.step s).1 (f.step s).2 0 := by
  have hl : f.lines = .access (wr 0x04 sector) :: operandLines f.target f.done off f.count := hl.trans (pieceLines_eq _ _ _ _ _)
  rw [step_access_goes_on hl (hostMove_setArg0 sector s) rfl]
  exact .of_setup hfit rfl (copies_of_cons_cons hl) rfl (.operands off he ⟨hp.sector, hp.want⟩ rfl)

theorem call_operands_stepped {off : Nat} (he : s.eng = .idle) (hp : PieceFits f off)
    (hl : f.lines = operandLines f.target f.done off f.count) :
    CallStepped s f 0 (f.step s).1 (f.step s).2 0 := by
  have hm := hostMove_setArg1 (BitVec.ofNat 10 off) (BitVec.ofNat 10 f.count) s
  cases ht : f.target with
  | some a =>
    rw [operandLines, ht] at hl
    rw [step_access_goes_on hl hm rfl]
    exact .of_setup hfit rfl (copies_of_cons_cons hl) rfl
      (.address a off he ⟨hp.sector, hp.want⟩ ⟨rfl, rfl⟩ ht (congrArg (addressLines · f.done) ht.symm))
  | none =>
    rw [operandLines, ht] at hl
    rw [step_access_goes_on hl hm rfl]
    exact .of_setup hfit rfl (copies_of_cons_cons hl) rfl
      (.launch off he ⟨hp.sector, hp.want⟩ ⟨rfl, rfl⟩ (fun a h => by rw [ht] at h; cases h) (congrArg launchLines ht.symm))

theorem call_address_stepped {a off : Nat} (he : s.eng = .idle) (hp : PieceFits f off) (ho : OperandsSet s f off)
    (ht : f.target = some a) (hl : f.lines = addressLines f.target f.done) :
    CallStepped s f 0 (f.step s).1 (f.step s).2 0 := by
  have hl : f.lines = .access (wr 0x0C ((BitVec.ofNat 16 (a + f.done)).setWidth 32)) :: launchLines (some a) := by
    rw [hl, ht]
    rfl
  rw [step_access_goes_on hl (hostMove_setAddr (BitVec.ofNat 16 (a + f.done)) s) rfl]
  refine .of_setup hfit rfl (copies_of_cons_cons hl) rfl
    (.launch off he ⟨hp.sector, hp.want⟩ ⟨ho.offset, ho.count⟩ (fun b hb => ?_) (congrArg launchLines ht.symm))
  rw [ht] at hb
  rw [Option.some.inj hb]

theorem readFor_capture {off : Nat} {t : State} (hp : PieceFits f off) (ho : OperandsSet s f off)
    (ha : ∀ a, f.target = some a → s.addr = BitVec.ofNat 16 (a + f.done)) (hpar : t.par = s.par)
    (hlatch : t.latch = capture (if f.target.isSome then 0x102 else 0x2) s) : ReadFor t f := by
  have hsector := hp.sector
  have hwant := hp.want
  have hsize := bufSize_range hfit.params
  have hoff : t.latch.off.toNat = off := by
    rw [hlatch]
    show s.argOffset.toNat = off
    rw [ho.offset, BitVec.toNat_ofNat, Nat.mod_eq_of_lt (by omega)]
  have hcnt : t.latch.cnt.toNat = f.count := by
    rw [hlatch]
    show s.argCount.toNat = f.count
    rw [ho.count, BitVec.toNat_ofNat, Nat.mod_eq_of_lt (by omega)]
  have hden : t.latch.den = f.target.isSome := by
    rw [hlatch]
    show (if f.target.isSome then (0x102 : Word) else 0x2).getLsbD 8 = f.target.isSome
    cases f.target.isSome <;> decide
  have haddr : ∀ a, f.target = some a → t.latch.addr.toNat = a + f.done := fun a hta => by
    have htarget := hfit.target a hta
    rw [hlatch]
    show s.addr.toNat = a + f.done
    rw [ha a hta, BitVec.toNat_ofNat, Nat.mod_eq_of_lt (by omega)]
  refine ⟨⟨?_, by omega, fun hd => ?_⟩, ?_, haddr, hwant⟩
  · rw [hlatch]
    show (if f.target.isSome then (0x102 : Word) else 0x2).extractLsb' 0 4 = 2
    cases f.target.isSome <;> decide
  · rw [hden] at hd
    obtain ⟨a, hta⟩ := Option.isSome_iff_exists.mp hd
    have htarget := hfit.target a hta
    rw [haddr a hta, hcnt, hpar, bmemSize]
    omega
  · rw [keptCount, hden, hcnt]

theorem call_launch_stepped {off : Nat} (he : s.eng = .idle) (hp : PieceFits f off) (ho : OperandsSet s f off)
    (ha : ∀ a, f.target = some a → s.addr = BitVec.ofNat 16 (a + f.done)) (hl : f.lines = launchLines f.target) :
    CallStepped s f 0 (f.step s).1 (f.step s).2 0 := by
  rw [step_access_goes_on hl (hostMove_launch _ he) rfl]
  have hr : ReadFor _ f := readFor_capture hfit (t := { s with
    cmdOp := (if f.target.isSome then (0x102 : Word) else 0x2).extractLsb' 0 4,
    cmdDen := (if f.target.isSome then (0x102 : Word) else 0x2).getLsbD 8,
    latch := capture (if f.target.isSome then 0x102 else 0x2) s, eng := .launched, resp := .done }) hp ho ha rfl rfl
  exact .of_setup hfit rfl (copies_of_cons_cons hl) rfl (.wait 0 ⟨hr.latched, hr.kept, hr.addr, hr.want⟩ rfl rfl)

theorem call_wait_stepped {k : Nat} (hr : ReadFor s f) (hk : storedBytes s = some k) (hl : f.lines = [waitIdle, .result]) :
    CallStepped s f k (f.step s).1 (f.step s).2 k := by
  have hstep : f.step s = ({ s with resp := .data (statusWord s) },
      { f with lines := if busy s then [waitIdle, .result] else [.result] }) := by
    rw [step_of_cons hl, host_waitIdle]
    cases busy s <;> rfl
  have hread : ∀ ls, ReadFor { s with resp := .data (statusWord s) } { f with lines := ls } := fun _ =>
    ⟨⟨hr.latched.op, hr.latched.sum, hr.latched.dest⟩, hr.kept, hr.addr, hr.want⟩
  rw [hstep]
  refine .of_setup hfit rfl (copies_of_cons_cons hl) rfl ?_
  cases hb : busy s with
  | true => exact .wait k (hread _) hk rfl
  | false => exact .result k (by simpa [busy] using hb) (hread _) hk rfl

theorem call_result_stepped {k : Nat} (he : s.eng = .idle) (hr : ReadFor s f) (hk : storedBytes s = some k)
    (hl : f.lines = [.result]) : CallStepped s f k (f.step s).1 (f.step s).2 0 := by
  have hstep : f.step s = ({ s with resp := .data (statusWord s) }, f.afterAccess [] [s.result.code.setWidth 32]) := by
    rw [step_of_cons hl, host_result]
    rfl
  have hk : k = storedAtEnd s.latch s.result := by
    rw [storedBytes, he] at hk
    exact (Option.some.inj hk).symm
  rw [hstep]
  by_cases hok : s.result = .ok
  · have hcode : s.result.code.setWidth 32 = (0 : Word) := by
      rw [hok]
      rfl
    rw [hcode, afterAccess_ok]
    refine ⟨rfl, .between he rfl, rfl, rfl, hr.want, .nothing (copies_of_result hl) ?_ fun _ => rfl⟩
    rw [hk, storedAtEnd, if_pos hok, hr.kept]
    simp only [FsRun.brought]
    split <;> rfl
  · have hcode : s.result.code.setWidth 32 ≠ (0 : Word) := by
      cases hres : s.result
      · exact absurd hres hok
      all_goals decide
    rw [afterAccess_failed _ _ hcode]
    refine ⟨rfl, .between he rfl, rfl, rfl, hfit.done, .nothing (copies_of_result hl) ?_ fun _ => rfl⟩
    rw [hk, storedAtEnd, if_neg hok]
    rfl

/-- One step of a call that is not over. -/
theorem call_stepped {k : Nat} (h : CallAt s f k) (ho : f.over = false) :
    ∃ k', CallStepped s f k (f.step s).1 (f.step s).2 k' := by
  cases h with
  | between he hl => exact ⟨0, call_between_stepped hfit he hl ho⟩
  | copy a b he ht hl hc hd => exact ⟨0, call_copy_stepped hfit he ht hl hc hd⟩
  | sector sector off he hp hl => exact ⟨0, call_sector_stepped hfit he hp hl⟩
  | operands off he hp hl => exact ⟨0, call_operands_stepped hfit he hp hl⟩
  | address a off he hp hargs ht hl => exact ⟨0, call_address_stepped hfit he hp hargs ht hl⟩
  | launch off he hp hargs ha hl => exact ⟨0, call_launch_stepped hfit he hp hargs ha hl⟩
  | wait k hr hk hl => exact ⟨k, call_wait_stepped hfit hr hk hl⟩
  | result k he hr hk hl => exact ⟨0, call_result_stepped hfit he hr hk hl⟩

end Steps

end Sys2Proof.Machine

/-! PROOFS. The double buffer (R256): where the stream's bytes are, and how ticks run through them. -/

namespace Sys2Proof.Machine

/-! ### Positions of the stream in the two buffers -/

/-- Byte `q * n + x` of a stream laid out in alternating buffers of `n` bytes is byte `x` of buffer `q % 2`. -/
theorem stream_address (q n x : Nat) (hx : x < n) : (q * n + x) % (2 * n) = bufferBase n (decide (q % 2 = 1)) + x := by
  obtain ⟨m, rfl | rfl⟩ : ∃ m, q = 2 * m ∨ q = 2 * m + 1 := ⟨q / 2, by omega⟩
  · rw [show 2 * m * n + x = 2 * n * m + x by ring, Nat.mul_add_mod, Nat.mod_eq_of_lt (by omega)]
    simp [bufferBase]
  · rw [show (2 * m + 1) * n + x = 2 * n * m + (n + x) by ring, Nat.mul_add_mod, Nat.mod_eq_of_lt (by omega)]
    simp [bufferBase, Nat.add_mod]

/-- Two stream positions less than two buffers apart have different places. -/
theorem stream_address_ne {n j k : Nat} (hjk : j < k) (hk : k < j + 2 * n) : j % (2 * n) ≠ k % (2 * n) := by
  intro h
  have hdvd := (Nat.modEq_iff_dvd' hjk.le).mp h
  exact absurd (Nat.le_of_dvd (by omega) hdvd) (by omega)

/-! ### The FIFO's registers against the stream -/

/-- What the double buffer's bookkeeping depends on. -/
structure FifoPart where
  size : Nat
  ten : Bool
  active : Bool
  swap : Bool
  acur : Nat
  arem : Nat

def fifoPart (s : State) : FifoPart := ⟨s.par.bufSize, s.ten, s.active, s.swap, s.acur.toNat, s.arem.toNat⟩

/-- The FIFO after the index reset, before the output starts: `emitted` bytes emitted, `counted` counted. -/
structure Quiet (v : FifoPart) (emitted counted : Nat) : Prop where
  ten : v.ten = false
  emitted : emitted = 0
  counted : counted = 0
  active : v.active = false
  swap : v.swap = false
  acur : v.acur = 0

/-- The FIFO after `q` switches of buffers, of `given` bytes brought. -/
structure Running (q : Nat) (v : FifoPart) (emitted counted given : Nat) : Prop where
  count : counted = emitted + v.arem
  le : counted ≤ given
  pos : emitted = q * v.size + v.acur
  acur : v.acur ≤ v.size
  active : v.active = decide (q % 2 = 1)
  begun : q * v.size < counted
  room : given ≤ (q + 2) * v.size
  swapped : v.swap = true → counted ≤ (q + 1) * v.size

section Ticks

variable {q emitted counted given : Nat} {v : FifoPart} (h : Running q v emitted counted given) (ha : v.arem ≠ 0)
include h ha

theorem Running.emitted_lt : emitted < given := by
  have hcount := h.count
  have hle := h.le
  omega

/-- A tick inside the active buffer. -/
theorem Running.tick_within (hc : v.acur ≠ v.size) :
    Running q { v with acur := v.acur + 1, arem := v.arem - 1 } (emitted + 1) counted given where
  count := h.count.trans (by show _ = emitted + 1 + (v.arem - 1); omega)
  le := h.le
  pos := (congrArg (· + 1) h.pos).trans (Nat.add_assoc _ _ _)
  acur := Nat.lt_of_le_of_ne h.acur hc
  active := h.active
  begun := h.begun
  room := h.room
  swapped := h.swapped

/-- A tick that finds the active buffer exhausted finds the next one counted. -/
theorem Running.switch_lt (hc : v.acur = v.size) : (q + 1) * v.size < counted := by
  have hcount := h.count
  have hpos := h.pos
  rw [hc] at hpos
  rw [Nat.succ_mul]
  omega

/-- So the last swap was taken: no underrun. -/
theorem Running.switch_swap (hc : v.acur = v.size) : v.swap = false := by
  by_contra hs
  exact absurd (h.switch_lt ha hc) (Nat.not_lt.mpr (h.swapped (by simpa using hs)))

theorem Running.tick_switch (hsize : 1 ≤ v.size) (hc : v.acur = v.size) :
    Running (q + 1) { v with active := !v.active, swap := true, acur := 1, arem := v.arem - 1 } (emitted + 1) counted given where
  count := h.count.trans (by show _ = emitted + 1 + (v.arem - 1); omega)
  le := h.le
  pos := by
    have hpos := h.pos
    rw [hc] at hpos
    show emitted + 1 = (q + 1) * v.size + 1
    rw [Nat.succ_mul, hpos]
  acur := hsize
  active := by
    show (!v.active) = decide ((q + 1) % 2 = 1)
    rw [h.active, ← decide_not, decide_eq_decide]
    omega
  begun := h.switch_lt ha hc
  room := h.room.trans (Nat.mul_le_mul_right _ (by omega))
  swapped := fun _ => (h.le.trans h.room)

end Ticks

/-! ### The bytes in block memory -/

/-- What was emitted is the beginning of what was brought, and the rest of it is in its place. -/
structure StreamData (s : State) (emitted given : List Byte) : Prop where
  prefix_eq : emitted = given.take emitted.length
  memory : ∀ k, emitted.length ≤ k → k < given.length → given[k]? = some (memRead s (k % (2 * s.par.bufSize)))

theorem StreamData.le {s : State} {emitted given : List Byte} (h : StreamData s emitted given) :
    emitted.length ≤ given.length := by
  rw [h.prefix_eq, List.length_take]
  exact Nat.min_le_right _ _

theorem StreamData.congr {s t : State} {emitted given : List Byte} (h : StreamData s emitted given) (hpar : t.par = s.par)
    (hmem : ∀ x, memRead t x = memRead s x) : StreamData t emitted given where
  prefix_eq := h.prefix_eq
  memory k h1 h2 := by rw [hmem, hpar]; exact h.memory k h1 h2

/-- A byte brought to its place, less than two buffers ahead of the ticks. -/
theorem StreamData.bring {s t : State} {emitted given : List Byte} {b : Byte} (h : StreamData s emitted given)
    (hpar : t.par = s.par) (hroom : given.length < emitted.length + 2 * s.par.bufSize)
    (hbyte : memRead t (given.length % (2 * s.par.bufSize)) = b)
    (hmem : ∀ x, x ≠ given.length % (2 * s.par.bufSize) → memRead t x = memRead s x) :
    StreamData t emitted (given ++ [b]) where
  prefix_eq := by rw [List.take_append_of_le_length h.le]; exact h.prefix_eq
  memory k h1 h2 := by
    rw [List.length_append, List.length_singleton] at h2
    rw [hpar]
    obtain hlt | rfl := Nat.lt_succ_iff_lt_or_eq.mp h2
    · rw [List.getElem?_append_left hlt, hmem _ (stream_address_ne hlt (by omega))]
      exact h.memory k h1 hlt
    · rw [List.getElem?_concat_length, hbyte]

/-- The next byte emitted. -/
theorem StreamData.emit {s t : State} {emitted given : List Byte} {b : Byte} (h : StreamData s emitted given)
    (hlt : emitted.length < given.length) (hpar : t.par = s.par) (hmem : ∀ x, memRead t x = memRead s x)
    (hb : b = memRead s (emitted.length % (2 * s.par.bufSize))) : StreamData t (emitted ++ [b]) given where
  prefix_eq := by
    have hget := h.memory emitted.length le_rfl hlt
    rw [List.length_append, List.length_singleton, List.take_add_one, hget, ← h.prefix_eq, hb]
    rfl
  memory k h1 h2 := by
    rw [List.length_append, List.length_singleton] at h1
    rw [hmem, hpar]
    exact h.memory k (by omega) h2

/-! ### A tick -/

theorem toNat_pred {s : State} (ha : s.arem ≠ 0) : (s.arem - 1).toNat = s.arem.toNat - 1 :=
  BitVec.toNat_sub_of_le (BitVec.le_def.mpr (Nat.one_le_iff_ne_zero.mpr fun h => ha (BitVec.eq_of_toNat_eq h)))

theorem arem_toNat_ne_zero {s : State} (ha : s.arem ≠ 0) : s.arem.toNat ≠ 0 :=
  fun h => ha (BitVec.eq_of_toNat_eq h)

theorem fifoPart_emit {s : State} (hacur : s.acur.toNat < 2 ^ 15) (ha : s.arem ≠ 0) :
    fifoPart (emit s) = { fifoPart s with acur := s.acur.toNat + 1, arem := s.arem.toNat - 1 } := by
  have hsucc : (s.acur + 1).toNat = s.acur.toNat + 1 := by
    rw [BitVec.toNat_add, Nat.mod_eq_of_lt (by simp; omega)]
    rfl
  show FifoPart.mk _ _ _ _ (s.acur + 1).toNat (s.arem - 1).toNat = _
  rw [hsucc, toNat_pred ha]
  rfl

/-- What a tick that emits leaves: the next byte of the stream emitted, and perhaps one more switch, whose bytes were counted. -/
structure Ticked (q q' : Nat) (s t : State) (emitted given : List Byte) (counted : Nat) : Prop where
  running : Running q' (fifoPart t) (emitted ++ [t.duty]).length counted given.length
  data : StreamData t (emitted ++ [t.duty]) given
  underrun : t.underrun = false
  switched : (q' = q ∧ t.swap = s.swap) ∨ (q' = q + 1 ∧ (q + 1) * s.par.bufSize < counted)

theorem tick_running {q counted : Nat} {s : State} {emitted given : List Byte} (hp : paramsOk s.par = true)
    (hr : Running q (fifoPart s) emitted.length counted given.length) (hd : StreamData s emitted given) (ha : s.arem ≠ 0)
    (hu : s.underrun = false) : ∃ q', Ticked q q' s (tickStep s) emitted given counted := by
  obtain ⟨hsize, hsize'⟩ := bufSize_range hp
  have ha' : (fifoPart s).arem ≠ 0 := arem_toNat_ne_zero ha
  have hacur : s.acur.toNat ≤ s.par.bufSize := hr.acur
  have hpos : emitted.length = q * s.par.bufSize + s.acur.toNat := hr.pos
  have hactive : s.active = decide (q % 2 = 1) := hr.active
  by_cases hc : s.acur.toNat = s.par.bufSize
  · have hadv : emitted.length = (q + 1) * s.par.bufSize + 0 := by rw [hpos, hc, Nat.succ_mul]; rfl
    have hbase : activeBase (switchBuffers s) = bufferBase s.par.bufSize (decide ((q + 1) % 2 = 1)) := by
      have hflip : (!s.active) = decide ((q + 1) % 2 = 1) := by
        rw [hactive, ← decide_not, decide_eq_decide]
        omega
      rw [← hflip]
      rfl
    rw [tickStep_exhausted ha hc]
    have hrun := hr.tick_switch ha' hsize hc
    rw [← List.length_singleton (a := (emit (switchBuffers s)).duty), ← List.length_append] at hrun
    refine ⟨q + 1, ?_, hd.emit (hr.emitted_lt ha') rfl (fun _ => rfl) ?_, ?_, .inr ⟨rfl, hr.switch_lt ha' hc⟩⟩
    · rw [fifoPart_emit (s := switchBuffers s) (show (0 : BitVec 16).toNat < 2 ^ 15 by decide) ha]
      exact hrun
    · rw [hadv, stream_address _ _ _ hsize, ← hbase]
      rfl
    · have hs : s.swap = false := hr.switch_swap ha' hc
      show (s.underrun || s.swap) = false
      rw [hu, hs]
      rfl
  · have hlt : s.acur.toNat < s.par.bufSize := Nat.lt_of_le_of_ne hacur hc
    have hbase : activeBase s = bufferBase s.par.bufSize (decide (q % 2 = 1)) := by
      rw [← hactive]
      rfl
    rw [tickStep_within ha hc]
    have hrun := hr.tick_within ha' hc
    rw [← List.length_singleton (a := (emit s).duty), ← List.length_append] at hrun
    refine ⟨q, ?_, hd.emit (hr.emitted_lt ha') rfl (fun _ => rfl) ?_, hu, .inl ⟨rfl, rfl⟩⟩
    · rw [fifoPart_emit (by omega) ha]
      exact hrun
    · rw [hpos, stream_address _ _ _ hlt, ← hbase]
      rfl

end Sys2Proof.Machine

/-! PROOFS. The streaming host beside the block: its invariant, and what the clocks and the engine do to it (R256, R286 to
R290). -/

namespace Sys2Proof.Machine

/-! ### A call beside the clocks and the engine -/

/-- Nothing changed but the audio part and the host port's answer. -/
def AudioFrame (s t : State) : Prop :=
  t = { s with ten := t.ten, pen := t.pen, ien := t.ien, active := t.active, swap := t.swap, underrun := t.underrun,
               acur := t.acur, arem := t.arem, tdiv := t.tdiv, duty := t.duty, tcnt := t.tcnt, pcnt := t.pcnt,
               resp := t.resp }

theorem AudioFrame.par_eq {s t : State} (h : AudioFrame s t) : t.par = s.par := by
  rw [AudioFrame] at h
  rw [h]

theorem AudioFrame.eng_eq {s t : State} (h : AudioFrame s t) : t.eng = s.eng := by
  rw [AudioFrame] at h
  rw [h]

theorem AudioFrame.memRead_eq {s t : State} (h : AudioFrame s t) (x : Nat) : memRead t x = memRead s x := by
  rw [AudioFrame] at h
  rw [h]
  rfl

theorem ReadFor.congr {s t : State} {f : FsRun} (h : ReadFor s f) (hl : t.latch = s.latch) (hp : t.par = s.par) : ReadFor t f := by
  obtain ⟨⟨hop, hsum, hdest⟩, hkept, haddr, hwant⟩ := h
  unfold DestInside at hdest
  rw [← hl] at hop hsum hdest hkept haddr
  rw [← hp] at hdest
  exact ⟨⟨hop, hsum, hdest⟩, hkept, haddr, hwant⟩

/-- A call does not see the audio part. -/
theorem CallAt.audio {s t : State} {f : FsRun} {k : Nat} (h : CallAt s f k) (ht : AudioFrame s t) : CallAt t f k := by
  rw [AudioFrame] at ht
  rw [ht]
  cases h with
  | between he hl => exact .between he hl
  | copy a b he htg hl hc hd => exact .copy a b he htg hl hc hd
  | sector sector off he hp hl => exact .sector sector off he hp hl
  | operands off he hp hl => exact .operands off he hp hl
  | address a off he hp ho htg hl => exact .address a off he hp ⟨ho.offset, ho.count⟩ htg hl
  | launch off he hp ho ha hl => exact .launch off he hp ⟨ho.offset, ho.count⟩ ha hl
  | wait k hr hk hl => exact .wait k (hr.congr rfl rfl) hk hl
  | result k he hr hk hl => exact .result k he (hr.congr rfl rfl) hk hl

/-- What an engine step during a call does: nothing the call sees, or one more byte of its READ stored. -/
inductive EngineBrings (s t : State) (f : FsRun) (k : Nat) : Prop
  | nothing (hs : storesByte s = false) (h : CallAt t f k) (hmem : ∀ x, memRead t x = memRead s x)
  | byte (a : Nat) (hs : storesByte s = true) (ht : f.target = some a) (hne : f.lines ≠ []) (hd : f.done + k < f.want)
      (h : CallAt t f (k + 1)) (hbyte : memRead t (a + f.done + k) = cardByte s)
      (hmem : ∀ x, x ≠ a + f.done + k → memRead t x = memRead s x)

theorem CallAt.idle_or_wait {s : State} {f : FsRun} {k : Nat} (h : CallAt s f k) :
    s.eng = .idle ∨ (ReadFor s f ∧ storedBytes s = some k ∧ f.lines = [waitIdle, .result]) := by
  cases h with
  | wait k hr hk hl => exact .inr ⟨hr, hk, hl⟩
  | _ => exact .inl ‹_›

theorem call_engine {s : State} {f : FsRun} {k : Nat} (h : CallAt s f k) :
    ∃ t, engineMove s = .next t ∧ ReadFrame s t ∧ EngineBrings s t f k := by
  obtain he | ⟨hr, hk, hl⟩ := h.idle_or_wait
  · exact ⟨s, engineMove_idle s he, rfl, .nothing (storesByte_of_not_packet (by simp [he])) h fun _ => rfl⟩
  obtain ⟨t, hm, hframe, hstep⟩ := read_stepped hr.latched hk
  have hread : ReadFor t f := hr.congr (by rw [ReadFrame] at hframe; rw [hframe]) (by rw [ReadFrame] at hframe; rw [hframe])
  refine ⟨t, hm, hframe, ?_⟩
  cases hstep with
  | silent hs hk' hmem => exact .nothing hs (.wait k hread hk' hl) hmem
  | stored hs hlt hk' hbyte hmem =>
    rw [hr.kept] at hlt
    cases htg : f.target with
    | none => rw [htg] at hlt; exact absurd hlt (Nat.not_lt_zero k)
    | some a =>
      rw [htg] at hlt
      have hlt : k < f.count := hlt
      have hwant := hr.want
      rw [hr.addr a htg] at hbyte hmem
      exact .byte a hs htg (by simp [hl]) (by omega) (.wait _ hread hk' hl) hbyte hmem

/-! ### The places of the sequence -/

/-- Where a call that begins at byte `base` of the stream brings its bytes. -/
structure Slot (p : Play) (target : Option Nat) (want base : Nat) : Prop where
  fits : ∀ a, target = some a → a + want ≤ 2 * p.s.par.bufSize
  room : target.isSome = true → base + want ≤ p.emitted.length + 2 * p.s.par.bufSize
  place : p.ended = false → ∀ a, target = some a → ∀ x, x < want → (base + x) % (2 * p.s.par.bufSize) = a + x

/-- The call is the host's next action, or runs. -/
inductive Calling (p : Play) (act : HostAction) (target : Option Nat) (want base : Nat) : Prop
  | waiting (hc : p.call = none) (ht : p.todo = [act]) (he : p.s.eng = .idle) (hg : p.given.length = base)
  | running (f : FsRun) (k : Nat) (hc : p.call = some f) (ht : p.todo = []) (htg : f.target = target) (hw : f.want = want)
      (hat : CallAt p.s f k) (hd : f.done ≤ f.want) (hg : p.given.length = base + f.brought k)
      (hend : p.ended = true → f.lines = [] ∧ f.pieces = [] ∧ f.done = 0)

/-- The phases in which the host is in a filesystem call: the action, its target, how much it wants, where it begins. -/
inductive CallPhase (c : StreamConfig) (p : Play) : HostAction → Option Nat → Nat → Nat → Prop
  | skipping (hph : p.host.phase = .skipping) (hq : Quiet (fifoPart p.s) p.emitted.length p.counted) :
      CallPhase c p (.fsSkip primingSkip) none primingSkip 0
  | fillFirst (hph : p.host.phase = .fillFirst) (hq : Quiet (fifoPart p.s) p.emitted.length p.counted) :
      CallPhase c p (.fsRead 0 c.bufSize) (some 0) c.bufSize 0
  | fillSecond (n : Nat) (hph : p.host.phase = .fillSecond n) (hq : Quiet (fifoPart p.s) p.emitted.length p.counted)
      (hpos : 0 < n) (hle : n ≤ c.bufSize) (hshort : n < c.bufSize → p.ended = true) :
      CallPhase c p (.fsRead c.bufSize c.bufSize) (some c.bufSize) c.bufSize n
  | refill (q : Nat) (b : Bool) (hph : p.host.phase = .refill b) (hb : b = decide ((q + 1) % 2 = 1))
      (hr : Running q (fifoPart p.s) p.emitted.length p.counted p.given.length) (hs : p.s.swap = false)
      (hcnt : p.counted = (q + 1) * c.bufSize) :
      CallPhase c p (.fsRead (bufferBase c.bufSize b) c.bufSize) (some (bufferBase c.bufSize b)) c.bufSize ((q + 1) * c.bufSize)

/-- What the host does after a fill: it waits for the next swap after a full one, for `DRAINED` after a short one. -/
inductive Waits (c : StreamConfig) (p : Play) : List HostAction → Prop
  | swap (hph : p.host.phase = .waitSwap) (hg : c.bufSize ∣ p.given.length) : Waits c p (awaitSwap c)
  | drain (hph : p.host.phase = .draining) : Waits c p [readAstat]

/-- No call runs, and the engine is idle. -/
structure NoCall (p : Play) : Prop where
  call : p.call = none
  idle : p.s.eng = .idle

/-- Where the host is in the sequence, and what holds of the double buffer there. -/
inductive Place (c : StreamConfig) (p : Play) : Prop
  | calling (act : HostAction) (target : Option Nat) (want base : Nat) (hph : CallPhase c p act target want base)
      (hslot : Slot p target want base) (hcall : Calling p act target want base)
  | prime (w : List HostAction) (hn : NoCall p) (hw : Waits c p w) (hq : Quiet (fifoPart p.s) p.emitted.length p.counted)
      (hpos : 0 < p.given.length) (hle : p.given.length ≤ 2 * c.bufSize)
      (ht : p.todo = .access (wr 0x2C (BitVec.ofNat 32 p.given.length)) :: (audioStart.map .access ++ w))
  | play (q : Nat) (w : List HostAction) (hn : NoCall p) (hw : Waits c p w)
      (hr : Running q (fifoPart p.s) p.emitted.length p.counted p.given.length) (hcnt : p.counted = p.given.length)
      (ht : p.todo = audioStart.map .access ++ w ∨ p.todo = .access (wr 0x20 0x00000007) :: w ∨ p.todo = w)
  | swapped (q : Nat) (hn : NoCall p) (hph : p.host.phase = .acked)
      (hr : Running q (fifoPart p.s) p.emitted.length p.counted p.given.length) (hcnt : p.counted = p.given.length)
      (hfull : p.counted = (q + 1) * c.bufSize)
      (ht : p.todo = [.access ackSwap, readAstat] ∨ (p.todo = [readAstat] ∧ p.s.swap = false))
  | add (q n : Nat) (w : List HostAction) (hn : NoCall p) (hw : Waits c p w)
      (hr : Running q (fifoPart p.s) p.emitted.length p.counted p.given.length) (hs : p.s.swap = false)
      (hfull : p.counted = (q + 1) * c.bufSize) (hg : p.given.length = p.counted + n)
      (ht : p.todo = .access (remAdd (BitVec.ofNat 32 n)) :: w)
  | stopped (hn : NoCall p) (hph : p.host.phase = .stopped) (hg : p.emitted.length = p.given.length)
      (hquiet : p.s.ten = false ∨ p.s.arem = 0) (hcnt : p.counted ≠ 0 → p.counted = p.emitted.length + p.s.arem.toNat)
      (hle : p.counted ≤ p.given.length)
      (ht : ∀ a ∈ p.todo, a ∈ [HostAction.access audioStop, .access ackSwap, .access ackUnderrun])

/-- The streaming host beside the block. -/
structure PlayInv (c : StreamConfig) (p : Play) : Prop where
  params : paramsOk p.s.par = true
  size : p.s.par.bufSize = c.bufSize
  underrun : p.s.underrun = false
  failed : p.host.failed = p.outcomes.any (fun r => r.2)
  data : StreamData p.s p.emitted p.given
  place : Place c p

/-! ### The clocks -/

/-- A clock without a tick that emits. -/
theorem place_clock {c : StreamConfig} {p : Play} {t : State} (ht : AudioFrame p.s t) (hv : fifoPart t = fifoPart p.s)
    (hs : t.swap = p.s.swap) (h : Place c p) : Place c { p with s := t } := by
  have hten : t.ten = p.s.ten := congrArg FifoPart.ten hv
  have harem : t.arem = p.s.arem := BitVec.eq_of_toNat_eq (congrArg FifoPart.arem hv)
  have hno : NoCall p → NoCall { p with s := t } := fun hn => ⟨hn.call, ht.eng_eq.trans hn.idle⟩
  have hwait : ∀ {w}, Waits c p w → Waits c { p with s := t } w := fun hw => by
    cases hw with
    | swap hph hg => exact .swap hph hg
    | drain hph => exact .drain hph
  have hquiet : Quiet (fifoPart p.s) p.emitted.length p.counted → Quiet (fifoPart t) p.emitted.length p.counted :=
    fun h => hv ▸ h
  have hrun : ∀ {q}, Running q (fifoPart p.s) p.emitted.length p.counted p.given.length →
      Running q (fifoPart t) p.emitted.length p.counted p.given.length := fun h => hv ▸ h
  cases h with
  | calling act target want base hph hslot hcall =>
    refine .calling act target want base ?_ ?_ ?_
    · cases hph with
      | skipping hph hq => exact .skipping hph (hquiet hq)
      | fillFirst hph hq => exact .fillFirst hph (hquiet hq)
      | fillSecond _ hph hq hpos hle hshort => exact .fillSecond _ hph (hquiet hq) hpos hle hshort
      | refill q b hph hb hr hsw hcnt => exact .refill q b hph hb (hrun hr) (hs.trans hsw) hcnt
    · have hpar := ht.par_eq
      exact ⟨fun a ha => hpar ▸ hslot.fits a ha, fun h => hpar ▸ hslot.room h,
        fun he a ha x hx => hpar ▸ hslot.place he a ha x hx⟩
    · cases hcall with
      | waiting hc htodo he hg => exact .waiting hc htodo (ht.eng_eq.trans he) hg
      | running f k hc htodo htg hw hat hd hg hend => exact .running f k hc htodo htg hw (hat.audio ht) hd hg hend
  | prime w hn hw hq hpos hle htodo => exact .prime w (hno hn) (hwait hw) (hquiet hq) hpos hle htodo
  | play q w hn hw hr hcnt htodo => exact .play q w (hno hn) (hwait hw) (hrun hr) hcnt htodo
  | swapped q hn hph hr hcnt hfull htodo =>
    exact .swapped q (hno hn) hph (hrun hr) hcnt hfull (htodo.imp_right fun h => ⟨h.1, hs.trans h.2⟩)
  | add q n w hn hw hr hsw hfull hg htodo => exact .add q n w (hno hn) (hwait hw) (hrun hr) (hs.trans hsw) hfull hg htodo
  | stopped hn hph hg hq hcnt hle htodo =>
    exact .stopped (hno hn) hph hg (by rw [hten, harem]; exact hq) (by rw [harem]; exact hcnt) hle htodo

theorem tickStep_audioFrame (s : State) : AudioFrame s (tickStep (restartTimer s)) := by
  unfold AudioFrame
  rw [tickStep_frame]
  rfl

/-- A tick that emits: the FIFO runs, and a swap that has not been taken, or a refill not counted, is not run past. -/
theorem place_tick {c : StreamConfig} {p : Play} (h : PlayInv c p) (hten : p.s.ten = true) (ha : p.s.arem ≠ 0) {t : State}
    (ht : AudioFrame p.s t)
    (htick : ∀ {q}, Running q (fifoPart p.s) p.emitted.length p.counted p.given.length →
      ∃ q', Ticked q q' p.s t p.emitted p.given p.counted) :
    Place c { p with s := t, emitted := p.emitted ++ [t.duty] } ∧ StreamData t (p.emitted ++ [t.duty]) p.given
      ∧ t.underrun = false := by
  have hno : NoCall p → NoCall { p with s := t, emitted := p.emitted ++ [t.duty] } := fun hn =>
    ⟨hn.call, ht.eng_eq.trans hn.idle⟩
  have hwait : ∀ {w}, Waits c p w → Waits c { p with s := t, emitted := p.emitted ++ [t.duty] } w := fun hw => by
    cases hw with
    | swap hph hg => exact .swap hph hg
    | drain hph => exact .drain hph
  have hquiet : ¬ Quiet (fifoPart p.s) p.emitted.length p.counted := fun hq => by
    have hoff : p.s.ten = false := hq.ten
    rw [hten] at hoff
    cases hoff
  have hsame : ∀ {q}, Running q (fifoPart p.s) p.emitted.length p.counted p.given.length →
      p.counted = (q + 1) * c.bufSize → Ticked q q p.s t p.emitted p.given p.counted ∧ t.swap = p.s.swap := by
    intro q hr hfull
    obtain ⟨q', hq'⟩ := htick hr
    obtain ⟨rfl, hsw⟩ | ⟨-, hlt⟩ := hq'.switched
    · exact ⟨hq', hsw⟩
    · rw [h.size, hfull] at hlt
      exact absurd hlt (lt_irrefl _)
  cases h.place with
  | calling act target want base hph hslot hcall =>
    cases hph with
    | skipping hph hq => exact absurd hq hquiet
    | fillFirst hph hq => exact absurd hq hquiet
    | fillSecond _ hph hq => exact absurd hq hquiet
    | refill q b hph hb hr hsw hcnt =>
      obtain ⟨hq, hsw'⟩ := hsame hr hcnt
      refine ⟨.calling _ _ _ _ (.refill q b hph hb hq.running (hsw'.trans hsw) hcnt) ?_ ?_, hq.data, hq.underrun⟩
      · have hpar := ht.par_eq
        refine ⟨fun a ha => hpar ▸ hslot.fits a ha, fun h => ?_, fun he a ha x hx => hpar ▸ hslot.place he a ha x hx⟩
        have hroom := hslot.room h
        show _ ≤ (p.emitted ++ [t.duty]).length + 2 * t.par.bufSize
        rw [hpar, List.length_append]
        omega
      · cases hcall with
        | waiting hc htodo he hg => exact .waiting hc htodo (ht.eng_eq.trans he) hg
        | running f k hc htodo htg hw hat hd hg hend => exact .running f k hc htodo htg hw (hat.audio ht) hd hg hend
  | prime w hn hw hq => exact absurd hq hquiet
  | play q w hn hw hr hcnt htodo =>
    obtain ⟨q', hq⟩ := htick hr
    exact ⟨.play q' w (hno hn) (hwait hw) hq.running hcnt htodo, hq.data, hq.underrun⟩
  | swapped q hn hph hr hcnt hfull htodo =>
    obtain ⟨hq, hsw'⟩ := hsame hr hfull
    exact ⟨.swapped q (hno hn) hph hq.running hcnt hfull (htodo.imp_right fun h => ⟨h.1, hsw'.trans h.2⟩), hq.data, hq.underrun⟩
  | add q n w hn hw hr hsw hfull hg htodo =>
    obtain ⟨hq, hsw'⟩ := hsame hr hfull
    exact ⟨.add q n w (hno hn) (hwait hw) hq.running (hsw'.trans hsw) hfull hg htodo, hq.data, hq.underrun⟩
  | stopped hn hph hg hq =>
    obtain hoff | h0 := hq
    · rw [hten] at hoff
      cases hoff
    · exact absurd h0 ha

theorem clock_waiting {p : Play} (h : timerExpires p.s = false) : p.clock = { p with s := countTimer p.s } := by
  have hm : moveStep .tclk p.s = .next (countTimer p.s) := if_neg (by simp [h])
  unfold Play.clock
  rw [hm, h]
  simp [outcomeState]

theorem clock_ticking {p : Play} (h : timerExpires p.s = true) : p.clock = { p with
    s := tickStep (restartTimer p.s)
    emitted := if p.s.arem ≠ 0 then p.emitted ++ [(tickStep (restartTimer p.s)).duty] else p.emitted } := by
  have hm : moveStep .tclk p.s = .next (tickStep (restartTimer p.s)) := if_pos h
  unfold Play.clock
  rw [hm, h]
  simp [outcomeState]

theorem countTimer_audioFrame (s : State) : AudioFrame s (countTimer s) := by
  obtain ⟨n, h⟩ := countTimer_cases s
  unfold AudioFrame
  rw [h]

theorem playInv_clock {c : StreamConfig} {p : Play} (h : PlayInv c p) : PlayInv c p.clock := by
  cases hexp : timerExpires p.s with
  | false =>
    have ht := countTimer_audioFrame p.s
    have hv : fifoPart (countTimer p.s) = fifoPart p.s := by unfold countTimer; split <;> rfl
    have hs : (countTimer p.s).swap = p.s.swap := congrArg FifoPart.swap hv
    have hu : (countTimer p.s).underrun = p.s.underrun := by unfold countTimer; split <;> rfl
    rw [clock_waiting hexp]
    exact ⟨ht.par_eq ▸ h.params, ht.par_eq ▸ h.size, hu.trans h.underrun, h.failed, h.data.congr ht.par_eq ht.memRead_eq,
      place_clock ht hv hs h.place⟩
  | true =>
    have ht := tickStep_audioFrame p.s
    have hten : p.s.ten = true := (Bool.and_eq_true_iff.mp hexp).1
    rw [clock_ticking hexp]
    by_cases ha : p.s.arem = 0
    · rw [if_neg (by simp [ha])]
      have hdrained : tickStep (restartTimer p.s) = restartTimer p.s := tickStep_drained ha
      rw [hdrained] at ht ⊢
      exact ⟨h.params, h.size, h.underrun, h.failed, h.data.congr rfl ht.memRead_eq, place_clock ht rfl rfl h.place⟩
    · rw [if_pos ha]
      obtain ⟨hplace, hdata, hu⟩ := place_tick h hten ha ht fun hr => by
        obtain ⟨q', hq⟩ := tick_running (s := restartTimer p.s) h.params hr (h.data.congr rfl fun _ => rfl) ha h.underrun
        exact ⟨q', hq.running, hq.data, hq.underrun, hq.switched⟩
      exact ⟨ht.par_eq ▸ h.params, ht.par_eq ▸ h.size, hu, h.failed, hdata, hplace⟩

theorem playInv_pclk {c : StreamConfig} {p : Play} (h : PlayInv c p) : PlayInv c (p.move c .pclk) := by
  have hm : p.move c .pclk = { p with s := pwmClock p.s } := rfl
  obtain ⟨n, hs⟩ := pwmClock_cases p.s
  rw [hm, hs]
  exact ⟨h.params, h.size, h.underrun, h.failed, h.data.congr rfl fun _ => rfl, place_clock rfl rfl rfl h.place⟩

/-! ### A step of a call, by the engine or by the host -/

/-- The host's place and the FIFO are as they were. -/
structure SameStream (p p' : Play) : Prop where
  host : p'.host = p.host
  fifo : fifoPart p'.s = fifoPart p.s
  par : p'.s.par = p.s.par
  underrun : p'.s.underrun = p.s.underrun
  emitted : p'.emitted = p.emitted
  counted : p'.counted = p.counted
  ended : p'.ended = p.ended
  outcomes : p'.outcomes = p.outcomes

theorem Running.bring {q emitted counted given given' : Nat} {v : FifoPart} (h : Running q v emitted counted given)
    (hle : given ≤ given') (hroom : given' ≤ (q + 2) * v.size) : Running q v emitted counted given' :=
  ⟨h.count, h.le.trans hle, h.pos, h.acur, h.active, h.begun, hroom, h.swapped⟩

theorem CallPhase.progress {c : StreamConfig} {p p' : Play} {act : HostAction} {target : Option Nat} {want base : Nat}
    (h : CallPhase c p act target want base) (hsize : p.s.par.bufSize = c.bufSize) (hs : SameStream p p')
    (hle : p.given.length ≤ p'.given.length) (hroom : p'.given.length ≤ base + want) : CallPhase c p' act target want base := by
  obtain ⟨hhost, hv, -, -, hE, hC, hended, -⟩ := hs
  cases h with
  | skipping hph hq => exact .skipping (hhost ▸ hph) (by rw [hv, hE, hC]; exact hq)
  | fillFirst hph hq => exact .fillFirst (hhost ▸ hph) (by rw [hv, hE, hC]; exact hq)
  | fillSecond _ hph hq hpos hle' hshort =>
    exact .fillSecond _ (hhost ▸ hph) (by rw [hv, hE, hC]; exact hq) hpos hle' fun h => hended ▸ hshort h
  | refill q b hph hb hr hsw hcnt =>
    refine .refill q b (hhost ▸ hph) hb ?_ ((congrArg FifoPart.swap hv).trans hsw) (hC.trans hcnt)
    rw [hv, hE, hC]
    refine hr.bring hle (hroom.trans ?_)
    rw [← hsize, show (q + 2) * (fifoPart p.s).size = (q + 1) * (fifoPart p.s).size + (fifoPart p.s).size by ring]
    exact le_rfl

theorem Slot.progress {p p' : Play} {target : Option Nat} {want base : Nat} (h : Slot p target want base)
    (hs : SameStream p p') : Slot p' target want base where
  fits a ha := by rw [hs.par]; exact h.fits a ha
  room ht := by rw [hs.par, hs.emitted]; exact h.room ht
  place he a ha x hx := by rw [hs.par]; exact h.place (hs.ended ▸ he) a ha x hx

/-- A call that runs brings at most what it wants. -/
theorem CallAt.brought_le {s : State} {f : FsRun} {k : Nat} (h : CallAt s f k) (hd : f.done ≤ f.want) : f.brought k ≤ f.want := by
  have hread : ∀ {k}, ReadFor s f → storedBytes s = some k → k ≤ keptCount s.latch → f.brought k ≤ f.want := by
    intro k hr hk hle
    have hwant := hr.want
    rw [hr.kept] at hle
    unfold FsRun.brought
    split
    · next ht => rw [if_pos ht] at hle; omega
    · exact Nat.zero_le _
  have hstored : ∀ {k}, storedBytes s = some k → k ≤ keptCount s.latch := by
    intro k hk
    have hend : ∀ r, storedAtEnd s.latch r ≤ keptCount s.latch := fun r => by unfold storedAtEnd; split <;> omega
    unfold storedBytes storedAt at hk
    split at hk <;> cases hk
    case h_1 => exact hend _
    case h_8 => exact Nat.min_le_right _ _
    case h_9 | h_10 => exact hend _
    all_goals exact Nat.zero_le _
  cases h with
  | wait k hr hk => exact hread hr hk (hstored hk)
  | result k he hr hk => exact hread hr hk (hstored hk)
  | _ => unfold FsRun.brought; split <;> omega

theorem Calling.given_le {p : Play} {act : HostAction} {target : Option Nat} {want base : Nat}
    (h : Calling p act target want base) : p.given.length ≤ base + want := by
  cases h with
  | waiting hc ht he hg => omega
  | running f k hc ht htg hw hat hd hg =>
    have hle := hat.brought_le hd
    omega

/-- A step of the call keeps the invariant when the call goes on and the bytes are where they belong. -/
theorem playInv_progress {c : StreamConfig} {p p' : Play} {act : HostAction} {target : Option Nat} {want base : Nat}
    (h : PlayInv c p) (hph : CallPhase c p act target want base) (hslot : Slot p target want base) (hs : SameStream p p')
    (hle : p.given.length ≤ p'.given.length) (hcall : Calling p' act target want base)
    (hdata : StreamData p'.s p'.emitted p'.given) : PlayInv c p' where
  params := hs.par ▸ h.params
  size := hs.par ▸ h.size
  underrun := hs.underrun.trans h.underrun
  failed := by rw [hs.host, hs.outcomes]; exact h.failed
  data := hdata
  place := .calling act target want base (hph.progress h.size hs hle hcall.given_le) (hslot.progress hs) hcall

/-- A byte of the call is stored where it belongs in the stream. -/
theorem StreamData.bring_call {p : Play} {t : State} {b : Byte} {a x want base : Nat} (h : StreamData p.s p.emitted p.given)
    (hslot : Slot p (some a) want base) (hended : p.ended = false) (hg : p.given.length = base + x) (hx : x < want)
    (hpar : t.par = p.s.par) (hbyte : memRead t (a + x) = b) (hmem : ∀ y, y ≠ a + x → memRead t y = memRead p.s y) :
    StreamData t p.emitted (p.given ++ [b]) := by
  have hroom := hslot.room rfl
  have haddr : p.given.length % (2 * p.s.par.bufSize) = a + x := by
    rw [hg]
    exact hslot.place hended a rfl x hx
  exact h.bring hpar (by omega) (haddr ▸ hbyte) (haddr ▸ hmem)

end Sys2Proof.Machine

/-! PROOFS. The streaming host beside the block: the engine's move, and a filesystem call from its start to its return (R287 to
R290). -/

namespace Sys2Proof.Machine

/-! ### The engine's move -/

theorem engine_idle {p : Play} (he : p.s.eng = .idle) : p.engine = p := by
  have hm : moveStep .engine p.s = .next p.s := engineMove_idle p.s he
  unfold Play.engine
  rw [hm, storesByte_of_not_packet (by simp [he])]
  rfl

theorem engine_eq {p : Play} {t : State} (hm : engineMove p.s = .next t) :
    p.engine = { p with s := t, given := if storesByte p.s then p.given ++ [cardByte p.s] else p.given } := by
  have hm : moveStep .engine p.s = .next t := hm
  unfold Play.engine
  rw [hm]
  rfl

theorem ReadFrame.sameStream {p : Play} {t : State} (h : ReadFrame p.s t) (given : List Byte) :
    SameStream p { p with s := t, given := given } := by
  rw [ReadFrame] at h
  rw [h]
  exact ⟨rfl, rfl, rfl, rfl, rfl, rfl, rfl, rfl⟩

theorem playInv_engine_call {c : StreamConfig} {p : Play} {act : HostAction} {want base k : Nat} {f : FsRun}
    (h : PlayInv c p) (hph : CallPhase c p act f.target want base) (hslot : Slot p f.target want base) (hc : p.call = some f)
    (ht : p.todo = []) (hw : f.want = want) (hat : CallAt p.s f k) (hd : f.done ≤ f.want)
    (hg : p.given.length = base + f.brought k) (hend : p.ended = true → f.lines = [] ∧ f.pieces = [] ∧ f.done = 0) :
    PlayInv c p.engine := by
  obtain ⟨t, hm, hframe, hstep⟩ := call_engine hat
  have hsame := hframe.sameStream (p := p)
  have hpar : t.par = p.s.par := (hsame []).par
  rw [engine_eq hm]
  cases hstep with
  | nothing hs hat' hmem =>
    rw [hs]
    exact playInv_progress h hph hslot (hsame _) le_rfl (.running f k hc ht rfl hw hat' hd hg hend) (h.data.congr hpar hmem)
  | byte a hs htg hne hlt hat' hbyte hmem =>
    have hended : p.ended = false := by
      rw [← Bool.not_eq_true]
      exact fun he => hne (hend he).1
    have hbrought : ∀ k, f.brought k = f.done + k := fun k => if_pos (by rw [htg]; rfl)
    rw [hbrought] at hg
    rw [hs, if_pos rfl]
    refine playInv_progress h hph hslot (hsame _) ?_ (.running f (k + 1) hc ht rfl hw hat' hd ?_ hend) ?_
    · rw [List.length_append]
      exact Nat.le_add_right _ _
    · rw [List.length_append, List.length_singleton, hg, hbrought]
      omega
    · rw [Nat.add_assoc] at hbyte hmem
      rw [htg] at hslot
      exact h.data.bring_call hslot hended hg (hw ▸ hlt) hpar hbyte hmem

theorem playInv_engine {c : StreamConfig} {p : Play} (h : PlayInv c p) : PlayInv c p.engine := by
  have hidle : p.s.eng = .idle → PlayInv c p.engine := fun he => (engine_idle he).symm ▸ h
  cases h.place with
  | calling act target want base hph hslot hcall =>
    cases hcall with
    | waiting hc ht he hg => exact hidle he
    | running f k hc ht htg hw hat hd hg hend =>
      subst htg
      exact playInv_engine_call h hph hslot hc ht hw hat hd hg hend
  | prime w hn => exact hidle hn.idle
  | play q w hn => exact hidle hn.idle
  | swapped q hn => exact hidle hn.idle
  | add q n w hn => exact hidle hn.idle
  | stopped hn => exact hidle hn.idle

/-! ### A call's start -/

/-- What the host does to start a call. -/
def StartsCall (c : StreamConfig) (p : Play) (act : HostAction) (target : Option Nat) (want : Nat) : Prop :=
  p.call = none → p.todo = [act] → p.hostStep c = { p with todo := [] }.startCall target want

theorem CallPhase.startsCall {c : StreamConfig} {p : Play} {act : HostAction} {target : Option Nat} {want base : Nat}
    (h : CallPhase c p act target want base) : StartsCall c p act target want := by
  intro hc ht
  cases h <;>
    · unfold Play.hostStep
      rw [hc, ht]

theorem playInv_startCall {c : StreamConfig} {p : Play} {act : HostAction} {target : Option Nat} {want base : Nat}
    (h : PlayInv c p) (hph : CallPhase c p act target want base) (hslot : Slot p target want base) (hc : p.call = none)
    (ht : p.todo = [act]) (he : p.s.eng = .idle) (hg : p.given.length = base) : PlayInv c (p.hostStep c) := by
  rw [hph.startsCall hc ht]
  refine playInv_progress h hph hslot (p' := { p with todo := [] }.startCall target want) ⟨rfl, rfl, rfl, rfl, rfl, rfl, rfl, rfl⟩
    le_rfl (.running _ 0 rfl rfl rfl rfl (.between he rfl) (Nat.zero_le _) ?_ fun hend => ⟨rfl, ?_, rfl⟩) h.data
  · have hbrought : ∀ call, (FsRun.start target want call).brought 0 = 0 := fun call => by unfold FsRun.brought; split <;> rfl
    rw [hbrought]
    exact hg
  · have hended : p.ended = true := hend
    show (FsRun.start target want (if p.ended then _ else _)).pieces = []
    rw [if_pos hended]
    rfl

/-! ### A call's steps -/

theorem hostStep_call {c : StreamConfig} {p : Play} {f : FsRun} (hc : p.call = some f) : p.hostStep c = p.stepCall c f := by
  unfold Play.hostStep
  rw [hc]

theorem CallFrame.sameStream {p : Play} {t : State} (h : CallFrame p.s t) (call : Option FsRun) (given : List Byte) :
    SameStream p { p with s := t, call := call, given := given } := by
  rw [CallFrame] at h
  rw [h]
  exact ⟨rfl, rfl, rfl, rfl, rfl, rfl, rfl, rfl⟩

theorem playInv_stepCall {c : StreamConfig} {p : Play} {act : HostAction} {want base k : Nat} {f : FsRun}
    (h : PlayInv c p) (hph : CallPhase c p act f.target want base) (hslot : Slot p f.target want base) (hc : p.call = some f)
    (ht : p.todo = []) (hw : f.want = want) (hat : CallAt p.s f k) (hd : f.done ≤ f.want)
    (hg : p.given.length = base + f.brought k) (hend : p.ended = true → f.lines = [] ∧ f.pieces = [] ∧ f.done = 0)
    (ho : f.over = false) : PlayInv c (p.hostStep c) := by
  have hstep : p.hostStep c = { p with s := (f.step p.s).1, call := some (f.step p.s).2, given := p.given ++ f.copies } := by
    rw [hostStep_call hc, Play.stepCall, if_neg (by simp [ho])]
  have hended : p.ended = false := by
    rw [← Bool.not_eq_true]
    intro he
    obtain ⟨hl, hp, -⟩ := hend he
    simp [FsRun.over, hl, hp] at ho
  obtain ⟨k', hs⟩ := call_stepped ⟨h.params, fun a ha => hw ▸ hslot.fits a ha, hd⟩ hat ho
  have hsame := hs.frame.sameStream (some (f.step p.s).2) (p.given ++ f.copies)
  have hpar : (f.step p.s).1.par = p.s.par := hsame.par
  have hcall : (p.given ++ f.copies).length = base + (f.step p.s).2.brought k' →
      Calling { p with s := (f.step p.s).1, call := some (f.step p.s).2, given := p.given ++ f.copies } act f.target want base :=
    fun hg' => .running _ k' rfl ht hs.target (hs.want.trans hw) hs.at_ hs.done hg'
      fun he => absurd (hended.symm.trans he) Bool.false_ne_true
  have hle : p.given.length ≤ (p.given ++ f.copies).length := by
    rw [List.length_append]
    exact Nat.le_add_right _ _
  rw [hstep]
  cases hs.brings with
  | nothing hcopies hb hmem =>
    refine playInv_progress h hph hslot hsame hle (hcall ?_) ?_
    · rw [hcopies, List.append_nil, hg, hb]
    · rw [hcopies, List.append_nil]
      exact h.data.congr hpar hmem
  | byte a b htg hlt hcopies hk hb hbyte hmem =>
    have hg : p.given.length = base + f.done := by rw [hg, hk, FsRun.brought, if_pos (by rw [htg]; rfl), Nat.add_zero]
    refine playInv_progress h hph hslot hsame hle (hcall ?_) ?_
    · rw [hcopies, List.length_append, List.length_singleton, hg, hb, Nat.add_assoc]
    · rw [hcopies]
      rw [htg] at hslot
      exact h.data.bring_call hslot hended hg (hw ▸ hlt) hpar hbyte hmem

end Sys2Proof.Machine

/-! PROOFS. The streaming host beside the block: what the host does when a call returns, and its own accesses (R286 to R289). -/

namespace Sys2Proof.Machine

/-! ### The sequence's events, phase by phase -/

section Events

variable (c : StreamConfig) {h : StreamHost}

theorem streamStep_skipping (hph : h.phase = .skipping) (n : Nat) (error : Bool) :
    streamStep c h (.fsDone n error)
      = if n < primingSkip then (⟨.stopped, h.failed || error⟩, [])
        else (⟨.fillFirst, h.failed || error⟩, [.fsRead 0 c.bufSize]) := by
  unfold streamStep
  rw [hph]

theorem streamStep_fillFirst (hph : h.phase = .fillFirst) (n : Nat) (error : Bool) :
    streamStep c h (.fsDone n error)
      = if n = 0 then (⟨.stopped, h.failed || error⟩, [])
        else (⟨.fillSecond n, h.failed || error⟩, [.fsRead c.bufSize c.bufSize]) := by
  unfold streamStep
  rw [hph]

theorem streamStep_fillSecond {n0 : Nat} (hph : h.phase = .fillSecond n0) (n1 : Nat) (error : Bool) :
    streamStep c h (.fsDone n1 error)
      = ((afterFill c n1 (h.failed || error)).1,
          .access (wr 0x2C (BitVec.ofNat 32 (n0 + n1)))
            :: (audioStart.map .access ++ (afterFill c n1 (h.failed || error)).2)) := by
  unfold streamStep
  rw [hph]
  rfl

theorem streamStep_refill {b : Bool} (hph : h.phase = .refill b) (n : Nat) (error : Bool) :
    streamStep c h (.fsDone n error)
      = ((afterFill c n (h.failed || error)).1,
          .access (remAdd (BitVec.ofNat 32 n)) :: (afterFill c n (h.failed || error)).2) := by
  unfold streamStep
  rw [hph]

theorem streamStep_waitSwap_astat (hph : h.phase = .waitSwap) (t : Word) :
    streamStep c h (.astat t) = if pollEnds 0x2 0x2 t then takeSwap h.failed else (h, [readAstat]) := by
  unfold streamStep
  rw [hph]

theorem streamStep_waitSwap_irq (hph : h.phase = .waitSwap) :
    streamStep c h .irq = if c.byIrq then takeSwap h.failed else (h, []) := by
  unfold streamStep
  rw [hph]

theorem streamStep_acked (hph : h.phase = .acked) (t : Word) :
    streamStep c h (.astat t)
      = (⟨.refill (!t.getLsbD 0), h.failed⟩, [.fsRead (bufferBase c.bufSize (!t.getLsbD 0)) c.bufSize]) := by
  unfold streamStep
  rw [hph]

theorem streamStep_draining (hph : h.phase = .draining) (t : Word) :
    streamStep c h (.astat t)
      = if pollEnds 0x8 0x8 t then (⟨.stopped, h.failed⟩, stopActions c) else (h, [readAstat]) := by
  unfold streamStep
  rw [hph]

theorem afterFill_failed (n : Nat) (failed : Bool) : (afterFill c n failed).1.failed = failed := by rw [afterFill_host]

/-- A full buffer is followed by the wait for the swap, a short one by the drain. -/
theorem waits_afterFill {p : Play} {n : Nat} {failed : Bool} (hhost : p.host = (afterFill c n failed).1)
    (hg : n = c.bufSize → c.bufSize ∣ p.given.length) : Waits c p (afterFill c n failed).2 := by
  by_cases hn : n = c.bufSize
  · have hfill : afterFill c n failed = (⟨.waitSwap, failed⟩, awaitSwap c) := if_pos hn
    rw [hfill] at hhost ⊢
    exact .swap (congrArg StreamHost.phase hhost) (hg hn)
  · have hfill : afterFill c n failed = (⟨.draining, failed⟩, [readAstat]) := if_neg hn
    rw [hfill] at hhost ⊢
    exact .drain (congrArg StreamHost.phase hhost)

end Events

theorem learn_eq {c : StreamConfig} {p : Play} {e : StreamEvent} {host : StreamHost} {next : List HostAction}
    (h : streamStep c p.host e = (host, next)) : p.learn c e = { p with host := host, todo := p.todo ++ next } := by
  unfold Play.learn
  rw [h]

/-! ### A call's return -/

/-- The play after a call has returned, before the host learns of it. -/
def Play.afterCall (p : Play) (f : FsRun) : Play :=
  { p with call := none, ended := p.ended || decide (f.done < f.want), outcomes := p.outcomes ++ [(f.done, f.error)] }

theorem CallAt.over {s : State} {f : FsRun} {k : Nat} (h : CallAt s f k) (ho : f.over = true) : s.eng = .idle ∧ k = 0 := by
  have hl : f.lines = [] := by
    unfold FsRun.over at ho
    exact List.isEmpty_iff.mp (Bool.and_eq_true_iff.mp ho).1
  cases h with
  | between he => exact ⟨he, rfl⟩
  | copy a b he ht h => rw [hl] at h; cases h
  | sector sector off he hp h => rw [hl, pieceLines_eq] at h; cases h
  | operands off he hp h => rw [hl] at h; cases h
  | address a off he hp ho ht h => rw [hl, ht] at h; cases h
  | launch off he hp ho ha h => rw [hl] at h; cases h
  | wait k hr hk h => rw [hl] at h; cases h
  | result k he hr hk h => rw [hl] at h; cases h

theorem any_append_outcome {outcomes : List (Nat × Bool)} {failed : Bool} (h : failed = outcomes.any (fun r => r.2)) (n : Nat)
    (error : Bool) : (failed || error) = (outcomes ++ [(n, error)]).any (fun r => r.2) := by
  rw [h, List.any_append]
  simp

/-- The host learns that a call has returned: its part of the invariant, when the place is right. -/
theorem playInv_return {c : StreamConfig} {p : Play} {f : FsRun} {host : StreamHost} {next : List HostAction} (h : PlayInv c p)
    (hc : p.call = some f) (ht : p.todo = []) (ho : f.over = true)
    (hs : streamStep c p.host (.fsDone f.done f.error) = (host, next)) (hf : host.failed = (p.host.failed || f.error))
    (hp : Place c { p.afterCall f with host := host, todo := next }) : PlayInv c (p.hostStep c) := by
  have hstep : p.hostStep c = { p.afterCall f with host := host, todo := next } := by
    rw [hostStep_call hc, Play.stepCall, if_pos ho]
    refine (learn_eq (p := p.afterCall f) hs).trans ?_
    rw [show (p.afterCall f).todo = [] from ht, List.nil_append]
  rw [hstep]
  exact ⟨h.params, h.size, h.underrun, hf.trans (any_append_outcome h.failed _ _), h.data, hp⟩

/-- A call that has returned. -/
structure Returned (p : Play) (f : FsRun) (target : Option Nat) (want base : Nat) : Prop where
  call : p.call = some f
  todo : p.todo = []
  isOver : f.over = true
  want : f.want = want
  done : f.done ≤ f.want
  idle : p.s.eng = .idle
  given : p.given.length = base + if target.isSome then f.done else 0
  ended : p.ended = true → f.done = 0

section Returns

variable {c : StreamConfig} {p : Play} {f : FsRun} (h : PlayInv c p)

theorem stopped_early {host : StreamHost} (hq : Quiet (fifoPart p.s) p.emitted.length p.counted) (he : p.s.eng = .idle)
    (hg : p.given.length = 0) (hph : host.phase = .stopped) : Place c { p.afterCall f with host := host, todo := [] } :=
  .stopped ⟨rfl, he⟩ hph (hq.emitted.trans hg.symm) (.inl hq.ten) (fun hne => absurd hq.counted hne)
    (hq.counted.trans_le (Nat.zero_le _)) nofun

include h

theorem playInv_skipped (hr : Returned p f none primingSkip 0) (hph : p.host.phase = .skipping)
    (hq : Quiet (fifoPart p.s) p.emitted.length p.counted) : PlayInv c (p.hostStep c) := by
  have hg : p.given.length = 0 := hr.given
  have hs := streamStep_skipping c hph f.done f.error
  by_cases hn : f.done < primingSkip
  · rw [if_pos hn] at hs
    exact playInv_return h hr.call hr.todo hr.isOver hs rfl (stopped_early hq hr.idle hg rfl)
  · rw [if_neg hn] at hs
    refine playInv_return h hr.call hr.todo hr.isOver hs rfl
      (.calling _ (some 0) c.bufSize 0 (.fillFirst rfl hq) ⟨?_, ?_, ?_⟩ (.waiting rfl rfl hr.idle hg))
    · rintro a ⟨⟩
      show 0 + c.bufSize ≤ 2 * p.s.par.bufSize
      rw [h.size]
      omega
    · intro _
      show 0 + c.bufSize ≤ p.emitted.length + 2 * p.s.par.bufSize
      rw [h.size]
      omega
    · rintro _ a ⟨⟩ x hx
      show (0 + x) % (2 * p.s.par.bufSize) = 0 + x
      rw [h.size]
      exact Nat.mod_eq_of_lt (by omega)

theorem playInv_filledFirst (hr : Returned p f (some 0) c.bufSize 0) (hph : p.host.phase = .fillFirst)
    (hq : Quiet (fifoPart p.s) p.emitted.length p.counted) : PlayInv c (p.hostStep c) := by
  have hg : p.given.length = f.done := hr.given.trans (Nat.zero_add _)
  have hdone : f.done ≤ c.bufSize := hr.want ▸ hr.done
  have hs := streamStep_fillFirst c hph f.done f.error
  by_cases hn : f.done = 0
  · rw [if_pos hn] at hs
    exact playInv_return h hr.call hr.todo hr.isOver hs rfl (stopped_early hq hr.idle (hg.trans hn) rfl)
  · rw [if_neg hn] at hs
    have hshort : f.done < c.bufSize → (p.afterCall f).ended = true := fun hlt => by
      show (p.ended || decide (f.done < f.want)) = true
      rw [hr.want, decide_eq_true hlt, Bool.or_true]
    refine playInv_return h hr.call hr.todo hr.isOver hs rfl
      (.calling _ (some c.bufSize) c.bufSize f.done (.fillSecond f.done rfl hq (Nat.pos_of_ne_zero hn) hdone hshort) ⟨?_, ?_, ?_⟩
        (.waiting rfl rfl hr.idle hg))
    · rintro a ⟨⟩
      show c.bufSize + c.bufSize ≤ 2 * p.s.par.bufSize
      rw [h.size]
      omega
    · intro _
      show f.done + c.bufSize ≤ p.emitted.length + 2 * p.s.par.bufSize
      rw [h.size]
      omega
    · rintro hended a ⟨⟩ x hx
      have hfull : f.done = c.bufSize := by
        by_contra hne
        exact absurd (hended.symm.trans (hshort (Nat.lt_of_le_of_ne hdone hne))) Bool.false_ne_true
      show (f.done + x) % (2 * p.s.par.bufSize) = c.bufSize + x
      rw [h.size, hfull]
      exact Nat.mod_eq_of_lt (by omega)

theorem playInv_filledSecond {n : Nat} (hr : Returned p f (some c.bufSize) c.bufSize n) (hph : p.host.phase = .fillSecond n)
    (hq : Quiet (fifoPart p.s) p.emitted.length p.counted) (hpos : 0 < n) (hle : n ≤ c.bufSize)
    (hshort : n < c.bufSize → p.ended = true) : PlayInv c (p.hostStep c) := by
  have hg : p.given.length = n + f.done := hr.given
  have hdone : f.done ≤ c.bufSize := hr.want ▸ hr.done
  refine playInv_return h hr.call hr.todo hr.isOver (streamStep_fillSecond c hph f.done f.error) (afterFill_failed _ _ _) ?_
  refine .prime _ ⟨rfl, hr.idle⟩ (waits_afterFill c rfl fun hfull => ?_) hq ?_ ?_ ?_
  · have hn : n = c.bufSize := by
      by_contra hne
      have hzero := hr.ended (hshort (Nat.lt_of_le_of_ne hle hne))
      omega
    show c.bufSize ∣ p.given.length
    rw [hg, hn, hfull]
    exact ⟨2, by ring⟩
  · show 0 < p.given.length
    omega
  · show p.given.length ≤ 2 * c.bufSize
    omega
  · show _ = HostAction.access (wr 0x2C (BitVec.ofNat 32 p.given.length)) :: _
    rw [hg]

theorem playInv_refilled {q : Nat} {b : Bool} (hr : Returned p f (some (bufferBase c.bufSize b)) c.bufSize ((q + 1) * c.bufSize))
    (hph : p.host.phase = .refill b) (hrun : Running q (fifoPart p.s) p.emitted.length p.counted p.given.length)
    (hsw : p.s.swap = false) (hcnt : p.counted = (q + 1) * c.bufSize) : PlayInv c (p.hostStep c) := by
  have hg : p.given.length = (q + 1) * c.bufSize + f.done := hr.given
  refine playInv_return h hr.call hr.todo hr.isOver (streamStep_refill c hph f.done f.error) (afterFill_failed _ _ _) ?_
  refine .add q f.done _ ⟨rfl, hr.idle⟩ (waits_afterFill c rfl fun hfull => ?_) hrun hsw hcnt ?_ rfl
  · show c.bufSize ∣ p.given.length
    rw [hg, hfull]
    exact ⟨q + 2, by ring⟩
  · show p.given.length = p.counted + f.done
    rw [hg, hcnt]

end Returns

theorem playInv_returned {c : StreamConfig} {p : Play} {act : HostAction} {target : Option Nat} {want base : Nat} {f : FsRun}
    (h : PlayInv c p) (hph : CallPhase c p act target want base) (hr : Returned p f target want base) :
    PlayInv c (p.hostStep c) := by
  cases hph with
  | skipping hph hq => exact playInv_skipped h hr hph hq
  | fillFirst hph hq => exact playInv_filledFirst h hr hph hq
  | fillSecond _ hph hq hpos hle hshort => exact playInv_filledSecond h hr hph hq hpos hle hshort
  | refill q b hph hb hrun hsw hcnt => exact playInv_refilled h hr hph hrun hsw hcnt

/-- The host's step in a call: its start, a step of it, or its return. -/
theorem playInv_calling {c : StreamConfig} {p : Play} {act : HostAction} {target : Option Nat} {want base : Nat}
    (h : PlayInv c p) (hph : CallPhase c p act target want base) (hslot : Slot p target want base)
    (hcall : Calling p act target want base) : PlayInv c (p.hostStep c) := by
  cases hcall with
  | waiting hc ht he hg => exact playInv_startCall h hph hslot hc ht he hg
  | running f k hc ht htg hw hat hd hg hend =>
    subst htg
    cases ho : f.over with
    | false => exact playInv_stepCall h hph hslot hc ht hw hat hd hg hend ho
    | true =>
      obtain ⟨he, rfl⟩ := hat.over ho
      exact playInv_returned h hph ⟨hc, ht, ho, hw, hd, he, hg, fun hended => (hend hended).2.2⟩

end Sys2Proof.Machine

/-! PROOFS. The double-buffer property (R256): the host's own accesses, the start of the sequence, and every interleaving of it. -/

namespace Sys2Proof.Machine

/-! ### What a read of `ASTAT` shows -/

theorem astatWord_active (s : State) : (astatWord s).getLsbD 0 = s.active := by
  unfold astatWord
  cases s.active <;> cases s.swap <;> cases s.underrun <;> cases drained s <;> rfl

theorem pollEnds_swap (s : State) : pollEnds 0x2 0x2 (astatWord s) = s.swap := by
  unfold astatWord
  cases s.active <;> cases s.swap <;> cases s.underrun <;> cases drained s <;> rfl

theorem pollEnds_drained (s : State) : pollEnds 0x8 0x8 (astatWord s) = drained s := by
  unfold astatWord
  cases s.active <;> cases s.swap <;> cases s.underrun <;> cases drained s <;> rfl

/-! ### The host's accesses -/

theorem hostStep_access {c : StreamConfig} {p : Play} {r : HostReq} {rest : List HostAction} (hc : p.call = none)
    (ht : p.todo = .access r :: rest) : p.hostStep c = { p with todo := rest }.access c r := by
  unfold Play.hostStep
  rw [hc, ht]

theorem hostStep_look {c : StreamConfig} {p : Play} (hc : p.call = none) (ht : p.todo = []) :
    p.hostStep c = if irq p.s then p.learn c .irq else p := by
  unfold Play.hostStep
  rw [hc, ht]

theorem access_store {c : StreamConfig} {p : Play} {off : Nat} {v : Word} {t : State} (hm : hostMove (wr off v) p.s = .next t) :
    p.access c (wr off v) = { p with s := t, counted := countedAfter (wr off v) p.counted } := by
  unfold Play.access
  rw [hm]
  dsimp only [outcomeState]
  split
  · next hacc => cases hacc
  · rfl

/-- A store of the host. -/
theorem hostStep_store {c : StreamConfig} {p : Play} {off : Nat} {v : Word} {rest : List HostAction} {t : State}
    (hc : p.call = none) (ht : p.todo = .access (wr off v) :: rest) (hm : hostMove (wr off v) p.s = .next t) :
    p.hostStep c = { p with todo := rest, s := t, counted := countedAfter (wr off v) p.counted } := by
  rw [hostStep_access hc ht]
  exact access_store (p := { p with todo := rest }) hm

/-- A read of `ASTAT`, and what the host learns of it. -/
theorem hostStep_astat {c : StreamConfig} {p : Play} {rest next : List HostAction} {host : StreamHost} (hc : p.call = none)
    (ht : p.todo = readAstat :: rest) (hs : streamStep c p.host (.astat (astatWord p.s)) = (host, next)) :
    p.hostStep c = { p with todo := rest ++ next, s := { p.s with resp := .data (astatWord p.s) }, host := host } := by
  have hm : hostMove (rd 0x24) { p with todo := rest }.s = .next { p.s with resp := .data (astatWord p.s) } :=
    hostMove_readAstat p.s
  rw [hostStep_access hc ht]
  unfold Play.access
  rw [hm]
  exact learn_eq (p := { p with todo := rest, s := { p.s with resp := .data (astatWord p.s) } }) hs

/-- A step of the host outside a call: the audio part changes, and the place is right. -/
theorem PlayInv.of_audio {c : StreamConfig} {p p' : Play} (h : PlayInv c p) (ht : AudioFrame p.s p'.s)
    (hu : p'.s.underrun = false) (hstream : p'.emitted = p.emitted ∧ p'.given = p.given)
    (hf : p'.host.failed = p.host.failed ∧ p'.outcomes = p.outcomes) (hp : Place c p') : PlayInv c p' where
  params := ht.par_eq ▸ h.params
  size := ht.par_eq ▸ h.size
  underrun := hu
  failed := by rw [hf.1, hf.2]; exact h.failed
  data := by rw [hstream.1, hstream.2]; exact h.data.congr ht.par_eq ht.memRead_eq
  place := hp

/-- A store to `ACTRL` without the index reset changes nothing of the double buffer but `TEN`. -/
theorem setActrl_effect {v : Word} (hv : v.getLsbD 3 = false) (s : State) :
    ∃ t, hostMove (wr 0x20 v) s = .next t ∧ AudioFrame s t ∧ t.underrun = s.underrun ∧ t.swap = s.swap
      ∧ fifoPart t = { fifoPart s with ten := v.getLsbD 0 } := by
  refine ⟨_, hostMove_setActrl v s, ?_⟩
  unfold writeActrl
  rw [if_neg (by rw [hv]; exact Bool.false_ne_true)]
  exact ⟨rfl, rfl, rfl, rfl⟩

theorem decode_ackSwap : decode (.access ackSwap) = .ok (.wrAstatSwap .w32 2) := rfl

theorem decode_ackUnderrun : decode (.access ackUnderrun) = .ok (.wrAstatUnderrun .w32 4) := rfl

theorem ackSwap_effect (s : State) :
    ∃ t, hostMove ackSwap s = .next t ∧ AudioFrame s t ∧ (s.underrun = false → t.underrun = false)
      ∧ fifoPart t = { fifoPart s with swap := false } := by
  refine ⟨_, hostMove_decoded decode_ackSwap s, rfl, fun h => ?_, ?_⟩
  · show (s.underrun && _) = false
    rw [h, Bool.false_and]
  · show FifoPart.mk _ _ _ (s.swap && false) _ _ = _
    rw [Bool.and_false]
    rfl

theorem Running.with_ten {q emitted counted given : Nat} {v : FifoPart} (h : Running q v emitted counted given) (b : Bool) :
    Running q { v with ten := b } emitted counted given :=
  ⟨h.count, h.le, h.pos, h.acur, h.active, h.begun, h.room, h.swapped⟩

theorem Running.acknowledged {q emitted counted given : Nat} {v : FifoPart} (h : Running q v emitted counted given) :
    Running q { v with swap := false } emitted counted given :=
  ⟨h.count, h.le, h.pos, h.acur, h.active, h.begun, h.room, nofun⟩

theorem NoCall.audio {p p' : Play} (h : NoCall p) (ht : AudioFrame p.s p'.s) (hc : p'.call = p.call) : NoCall p' :=
  ⟨hc.trans h.call, ht.eng_eq.trans h.idle⟩

theorem Waits.congr {c : StreamConfig} {p p' : Play} {w : List HostAction} (h : Waits c p w) (hh : p'.host = p.host)
    (hg : p'.given = p.given) : Waits c p' w := by
  cases h with
  | swap hph hd => exact .swap (hh ▸ hph) (hg ▸ hd)
  | drain hph => exact .drain (hh ▸ hph)

/-- A swap that is seen comes when the buffers brought so far are whole. -/
theorem counted_of_swap {c : StreamConfig} {p : Play} {q : Nat} (h : PlayInv c p)
    (hr : Running q (fifoPart p.s) p.emitted.length p.counted p.given.length) (hcnt : p.counted = p.given.length)
    (hd : c.bufSize ∣ p.given.length) (hs : p.s.swap = true) :
    p.counted = (q + 1) * c.bufSize := by
  obtain ⟨m, hm⟩ := hd
  have hle : p.counted ≤ (q + 1) * p.s.par.bufSize := hr.swapped hs
  have hlt : q * p.s.par.bufSize < p.counted := hr.begun
  rw [h.size, hcnt, hm, Nat.mul_comm _ m] at hle hlt
  have h1 : q < m := lt_of_mul_lt_mul_right hlt (Nat.zero_le _)
  have h2 : (q + 1) * c.bufSize ≤ m * c.bufSize := Nat.mul_le_mul_right _ h1
  rw [hcnt, hm, Nat.mul_comm]
  exact le_antisymm hle h2

/-! ### The end of priming: `AREM`, then the output, the interrupt and the timer (R287, R288) -/

section Steps

variable {c : StreamConfig} {p : Play} (h : PlayInv c p) (hn : NoCall p)
include h hn

theorem playInv_prime {w : List HostAction} (hw : Waits c p w) (hq : Quiet (fifoPart p.s) p.emitted.length p.counted)
    (hpos : 0 < p.given.length) (hle : p.given.length ≤ 2 * c.bufSize)
    (ht : p.todo = .access (wr 0x2C (BitVec.ofNat 32 p.given.length)) :: (audioStart.map .access ++ w)) :
    PlayInv c (p.hostStep c) := by
  have hsize := bufSize_range h.params
  have hword : (BitVec.ofNat 32 p.given.length).toNat = p.given.length := by
    rw [BitVec.toNat_ofNat]
    exact Nat.mod_eq_of_lt (by have := h.size; omega)
  rw [hostStep_store hn.call ht (hostMove_setArem _ _)]
  refine h.of_audio rfl h.underrun ⟨rfl, rfl⟩ ⟨rfl, rfl⟩
    (.play 0 w ⟨hn.call, hn.idle⟩ (hw.congr rfl rfl) ⟨?_, ?_, ?_, ?_, hq.active, ?_, ?_, ?_⟩ hword (.inl rfl))
  · show (BitVec.ofNat 32 p.given.length).toNat = p.emitted.length + (BitVec.ofNat 32 p.given.length).toNat
    rw [hq.emitted, Nat.zero_add]
  · exact hword.le
  · show p.emitted.length = 0 * p.s.par.bufSize + p.s.acur.toNat
    rw [hq.emitted, Nat.zero_mul, Nat.zero_add]
    exact hq.acur.symm
  · exact hq.acur.trans_le (Nat.zero_le _)
  · show 0 * p.s.par.bufSize < (BitVec.ofNat 32 p.given.length).toNat
    rw [hword, Nat.zero_mul]
    exact hpos
  · show p.given.length ≤ (0 + 2) * p.s.par.bufSize
    rw [h.size]
    omega
  · intro hs
    exact absurd (hq.swap.symm.trans hs) Bool.false_ne_true

/-- The two stores of `audio_start`. -/
theorem playInv_audioStart {q : Nat} {w rest : List HostAction} {v : Word} (hw : Waits c p w)
    (hr : Running q (fifoPart p.s) p.emitted.length p.counted p.given.length) (hcnt : p.counted = p.given.length)
    (ht : p.todo = .access (wr 0x20 v) :: rest) (hv : v.getLsbD 3 = false)
    (hrest : rest = .access (wr 0x20 0x00000007) :: w ∨ rest = w) : PlayInv c (p.hostStep c) := by
  obtain ⟨t, hm, hframe, hu, hs, hfifo⟩ := setActrl_effect hv p.s
  rw [hostStep_store hn.call ht hm]
  exact h.of_audio hframe (hu.trans h.underrun) ⟨rfl, rfl⟩ ⟨rfl, rfl⟩
    (.play q w (hn.audio hframe rfl) (hw.congr rfl rfl) (hfifo ▸ hr.with_ten _) hcnt (.inr hrest))

/-! ### The wait for `SWAP` and for `DRAINED` (R288, R289) -/

theorem playInv_pollSwap {q : Nat} (hr : Running q (fifoPart p.s) p.emitted.length p.counted p.given.length)
    (hcnt : p.counted = p.given.length) (hph : p.host.phase = .waitSwap) (hd : c.bufSize ∣ p.given.length)
    (hi : c.byIrq = false) (ht : p.todo = [readAstat]) : PlayInv c (p.hostStep c) := by
  have hs := streamStep_waitSwap_astat c hph (astatWord p.s)
  rw [pollEnds_swap] at hs
  cases hsw : p.s.swap with
  | true =>
    have hfull := counted_of_swap h hr hcnt hd hsw
    rw [hsw, if_pos rfl] at hs
    rw [hostStep_astat hn.call ht hs]
    exact h.of_audio rfl h.underrun ⟨rfl, rfl⟩ ⟨rfl, rfl⟩ (.swapped q ⟨hn.call, hn.idle⟩ rfl hr hcnt hfull (.inl rfl))
  | false =>
    rw [hsw, if_neg Bool.false_ne_true] at hs
    rw [hostStep_astat hn.call ht hs]
    have hw : awaitSwap c = [readAstat] := if_neg (by rw [hi]; exact Bool.false_ne_true)
    exact h.of_audio rfl h.underrun ⟨rfl, rfl⟩ ⟨rfl, rfl⟩
      (.play q (awaitSwap c) ⟨hn.call, hn.idle⟩ (.swap hph hd) hr hcnt (.inr (.inr hw.symm)))

theorem playInv_lookIrq {q : Nat} (hr : Running q (fifoPart p.s) p.emitted.length p.counted p.given.length)
    (hcnt : p.counted = p.given.length) (hph : p.host.phase = .waitSwap) (hd : c.bufSize ∣ p.given.length)
    (hi : c.byIrq = true) (ht : p.todo = []) : PlayInv c (p.hostStep c) := by
  rw [hostStep_look hn.call ht]
  split
  · next hirq =>
    have hfull := counted_of_swap h hr hcnt hd (Bool.and_eq_true_iff.mp hirq).1
    have hs := streamStep_waitSwap_irq c hph
    rw [hi, if_pos rfl] at hs
    rw [learn_eq hs]
    refine h.of_audio rfl h.underrun ⟨rfl, rfl⟩ ⟨rfl, rfl⟩
      (.swapped q ⟨hn.call, hn.idle⟩ rfl hr hcnt hfull (.inl ?_))
    show p.todo ++ _ = _
    rw [ht]
    rfl
  · exact h

theorem playInv_pollDrained {q : Nat} (hr : Running q (fifoPart p.s) p.emitted.length p.counted p.given.length)
    (hcnt : p.counted = p.given.length) (hph : p.host.phase = .draining) (ht : p.todo = [readAstat]) :
    PlayInv c (p.hostStep c) := by
  have hs := streamStep_draining c hph (astatWord p.s)
  rw [pollEnds_drained] at hs
  cases hd : drained p.s with
  | true =>
    have harem : p.s.arem = 0 := of_decide_eq_true hd
    have hcount : p.counted = p.emitted.length + p.s.arem.toNat := hr.count
    rw [hd, if_pos rfl] at hs
    rw [hostStep_astat hn.call ht hs]
    refine h.of_audio rfl h.underrun ⟨rfl, rfl⟩ ⟨rfl, rfl⟩
      (.stopped ⟨hn.call, hn.idle⟩ rfl ?_ (.inr harem) (fun _ => hcount) hr.le ?_)
    · rw [harem] at hcount
      exact hcount.symm.trans hcnt
    · intro a ha
      have ha : a ∈ stopActions c := ha
      unfold stopActions at ha
      split at ha
      · exact ha
      · exact List.mem_cons.mpr (.inl (List.mem_singleton.mp ha))
  | false =>
    rw [hd, if_neg Bool.false_ne_true] at hs
    rw [hostStep_astat hn.call ht hs]
    exact h.of_audio rfl h.underrun ⟨rfl, rfl⟩ ⟨rfl, rfl⟩
      (.play q _ ⟨hn.call, hn.idle⟩ (.drain hph) hr hcnt (.inr (.inr rfl)))

theorem playInv_wait {q : Nat} {w : List HostAction} (hw : Waits c p w)
    (hr : Running q (fifoPart p.s) p.emitted.length p.counted p.given.length) (hcnt : p.counted = p.given.length)
    (ht : p.todo = w) : PlayInv c (p.hostStep c) := by
  cases hw with
  | drain hph => exact playInv_pollDrained h hn hr hcnt hph ht
  | swap hph hd =>
    cases hi : c.byIrq with
    | false => exact playInv_pollSwap h hn hr hcnt hph hd hi (ht.trans (if_neg (by rw [hi]; exact Bool.false_ne_true)))
    | true => exact playInv_lookIrq h hn hr hcnt hph hd hi (ht.trans (if_pos hi))

/-! ### The swap taken: the acknowledgement, the look at `ACTIVE`, the refill's count (R288) -/

theorem playInv_ackSwap {q : Nat} (hph : p.host.phase = .acked)
    (hr : Running q (fifoPart p.s) p.emitted.length p.counted p.given.length) (hcnt : p.counted = p.given.length)
    (hfull : p.counted = (q + 1) * c.bufSize) (ht : p.todo = [.access ackSwap, readAstat]) : PlayInv c (p.hostStep c) := by
  obtain ⟨t, hm, hframe, hu, hfifo⟩ := ackSwap_effect p.s
  rw [hostStep_store hn.call ht hm]
  exact h.of_audio hframe (hu h.underrun) ⟨rfl, rfl⟩ ⟨rfl, rfl⟩
    (.swapped q (hn.audio hframe rfl) hph (hfifo ▸ hr.acknowledged) hcnt hfull (.inr ⟨rfl, congrArg FifoPart.swap hfifo⟩))

theorem playInv_lookActive {q : Nat} (hph : p.host.phase = .acked)
    (hr : Running q (fifoPart p.s) p.emitted.length p.counted p.given.length) (hcnt : p.counted = p.given.length)
    (hfull : p.counted = (q + 1) * c.bufSize) (ht : p.todo = [readAstat]) (hsw : p.s.swap = false) :
    PlayInv c (p.hostStep c) := by
  have hs := streamStep_acked c hph (astatWord p.s)
  have hb : (!(astatWord p.s).getLsbD 0) = decide ((q + 1) % 2 = 1) := by
    have hactive : p.s.active = decide (q % 2 = 1) := hr.active
    rw [astatWord_active, hactive, ← decide_not, decide_eq_decide]
    omega
  rw [hostStep_astat hn.call ht hs]
  refine h.of_audio rfl h.underrun ⟨rfl, rfl⟩ ⟨rfl, rfl⟩
    (.calling _ _ _ _ (.refill q _ rfl hb hr hsw hfull) ⟨?_, ?_, ?_⟩ (.waiting hn.call rfl hn.idle (hcnt.symm.trans hfull)))
  · rintro a ⟨⟩
    show bufferBase c.bufSize _ + c.bufSize ≤ 2 * p.s.par.bufSize
    rw [h.size, bufferBase]
    split <;> omega
  · intro _
    have hpos : p.emitted.length = q * p.s.par.bufSize + p.s.acur.toNat := hr.pos
    show (q + 1) * c.bufSize + c.bufSize ≤ p.emitted.length + 2 * p.s.par.bufSize
    rw [hpos, h.size, Nat.succ_mul]
    omega
  · rintro - a ⟨⟩ x hx
    show ((q + 1) * c.bufSize + x) % (2 * p.s.par.bufSize) = bufferBase c.bufSize _ + x
    rw [h.size, hb]
    exact stream_address _ _ _ hx

theorem playInv_add {q n : Nat} {w : List HostAction} (hw : Waits c p w)
    (hr : Running q (fifoPart p.s) p.emitted.length p.counted p.given.length) (hsw : p.s.swap = false)
    (hfull : p.counted = (q + 1) * c.bufSize) (hg : p.given.length = p.counted + n)
    (ht : p.todo = .access (remAdd (BitVec.ofNat 32 n)) :: w) : PlayInv c (p.hostStep c) := by
  have hsize := bufSize_range h.params
  have hcount : p.counted = p.emitted.length + p.s.arem.toNat := hr.count
  have hpos : p.emitted.length = q * p.s.par.bufSize + p.s.acur.toNat := hr.pos
  have hroom : p.given.length ≤ (q + 2) * p.s.par.bufSize := hr.room
  have hbegun : q * p.s.par.bufSize < p.counted := hr.begun
  have hq1 : (q + 1) * p.s.par.bufSize = q * p.s.par.bufSize + p.s.par.bufSize := by ring
  have hq2 : (q + 2) * p.s.par.bufSize = q * p.s.par.bufSize + 2 * p.s.par.bufSize := by ring
  rw [← h.size] at hfull
  have hword : (BitVec.ofNat 32 n).toNat = n := by
    rw [BitVec.toNat_ofNat]
    exact Nat.mod_eq_of_lt (by omega)
  have harem : (p.s.arem + BitVec.ofNat 32 n).toNat = p.s.arem.toNat + n := by
    rw [BitVec.toNat_add, hword]
    exact Nat.mod_eq_of_lt (by omega)
  have hcounted : countedAfter (remAdd (BitVec.ofNat 32 n)) p.counted = p.counted + n := congrArg (p.counted + ·) hword
  rw [hostStep_store hn.call ht (hostMove_remAdd _ _)]
  refine h.of_audio rfl h.underrun ⟨rfl, rfl⟩ ⟨rfl, rfl⟩
    (.play q w ⟨hn.call, hn.idle⟩ (hw.congr rfl rfl) ⟨?_, ?_, hr.pos, hr.acur, hr.active, ?_, hr.room, ?_⟩
      (hcounted.trans hg.symm) (.inr (.inr rfl)))
  · show countedAfter (remAdd _) p.counted = p.emitted.length + (p.s.arem + BitVec.ofNat 32 n).toNat
    rw [hcounted, harem]
    omega
  · exact (hcounted.trans hg.symm).le
  · show q * p.s.par.bufSize < countedAfter (remAdd _) p.counted
    rw [hcounted]
    omega
  · intro hs
    exact absurd (hsw.symm.trans hs) Bool.false_ne_true

/-! ### The host has stopped (R289) -/

theorem playInv_stopped (hph : p.host.phase = .stopped) (hg : p.emitted.length = p.given.length)
    (hquiet : p.s.ten = false ∨ p.s.arem = 0) (hcnt : p.counted ≠ 0 → p.counted = p.emitted.length + p.s.arem.toNat)
    (hle : p.counted ≤ p.given.length)
    (ht : ∀ a ∈ p.todo, a ∈ [HostAction.access audioStop, .access ackSwap, .access ackUnderrun]) :
    PlayInv c (p.hostStep c) := by
  have hstore : ∀ (off : Nat) (v : Word) (rest : List HostAction) (t : State), p.todo = .access (wr off v) :: rest →
      countedAfter (wr off v) p.counted = p.counted → hostMove (wr off v) p.s = .next t → AudioFrame p.s t →
      t.underrun = false → t.arem = p.s.arem → (p.s.ten = false → t.ten = false) → PlayInv c (p.hostStep c) := by
    intro off v rest t htodo hcounted hm hframe hu harem hten
    rw [hostStep_store hn.call htodo hm, hcounted]
    refine h.of_audio hframe hu ⟨rfl, rfl⟩ ⟨rfl, rfl⟩
      (.stopped (hn.audio hframe rfl) hph hg (hquiet.imp hten harem.trans) (fun hne => ?_) hle fun a ha => ht a ?_)
    · rw [show (_ : BitVec 32) = p.s.arem from harem]
      exact hcnt hne
    · rw [htodo]
      exact List.mem_cons_of_mem _ ha
  cases htodo : p.todo with
  | nil =>
    have hs : streamStep c p.host .irq = (p.host, []) := by
      have hhost : p.host = ⟨.stopped, p.host.failed⟩ := by rw [← hph]
      rw [hhost]
      exact streamStep_stopped c _ .irq
    have hlearn : p.learn c .irq = p := by
      rw [learn_eq hs, List.append_nil]
    rw [hostStep_look hn.call htodo, hlearn, ite_self]
    exact h
  | cons a rest =>
    have ha := ht a (htodo ▸ List.mem_cons_self)
    simp only [List.mem_cons, List.not_mem_nil, or_false] at ha
    obtain rfl | rfl | rfl := ha
    · obtain ⟨t, hm, hframe, hu, -, hfifo⟩ := setActrl_effect (v := 0) rfl p.s
      exact hstore _ _ rest t htodo rfl hm hframe (hu.trans h.underrun)
        (BitVec.eq_of_toNat_eq (congrArg FifoPart.arem hfifo)) fun _ => congrArg FifoPart.ten hfifo
    · obtain ⟨t, hm, hframe, hu, hfifo⟩ := ackSwap_effect p.s
      exact hstore _ _ rest t htodo rfl hm hframe (hu h.underrun)
        (BitVec.eq_of_toNat_eq (congrArg FifoPart.arem hfifo)) (congrArg FifoPart.ten hfifo).trans
    · exact hstore _ _ rest _ htodo rfl (hostMove_decoded decode_ackUnderrun p.s) rfl
        (Bool.and_false _) rfl id

end Steps

/-! ### The host's step, wherever it is -/

theorem playInv_host {c : StreamConfig} {p : Play} (h : PlayInv c p) : PlayInv c (p.hostStep c) := by
  cases h.place with
  | calling act target want base hph hslot hcall => exact playInv_calling h hph hslot hcall
  | prime w hn hw hq hpos hle ht => exact playInv_prime h hn hw hq hpos hle ht
  | play q w hn hw hr hcnt ht =>
    obtain ht | ht | ht := ht
    · exact playInv_audioStart h hn hw hr hcnt ht rfl (.inl rfl)
    · exact playInv_audioStart h hn hw hr hcnt ht rfl (.inr rfl)
    · exact playInv_wait h hn hw hr hcnt ht
  | swapped q hn hph hr hcnt hfull ht =>
    obtain ht | ⟨ht, hsw⟩ := ht
    · exact playInv_ackSwap h hn hph hr hcnt hfull ht
    · exact playInv_lookActive h hn hph hr hcnt hfull ht hsw
  | add q n w hn hw hr hsw hfull hg ht => exact playInv_add h hn hw hr hsw hfull hg ht
  | stopped hn hph hg hquiet hcnt hle ht => exact playInv_stopped h hn hph hg hquiet hcnt hle ht

/-! ### The start of the sequence and its runs -/

/-- The index reset (R242, R287). -/
theorem audioReset_effect (s : State) :
    ∃ t, hostMove audioReset s = .next t ∧ AudioFrame s t ∧ t.underrun = false
      ∧ fifoPart t = { fifoPart s with ten := false, active := false, swap := false, acur := 0 } :=
  ⟨_, hostMove_setActrl _ s, rfl, rfl, rfl⟩

theorem playInv_start {c : StreamConfig} {s : State} {status : Word} {header : List Byte} {position : Nat}
    (calls : List FsCall) (hpar : paramsOk s.par = true) (hsize : c.bufSize = s.par.bufSize) (hb : busy s = false)
    (hready : streamReady status header position = true) : PlayInv c (Play.start c s status header position calls) := by
  obtain ⟨t, hm, hframe, hu, hfifo⟩ := audioReset_effect s
  have he : s.eng = .idle := by simpa [busy] using hb
  have hstart : Play.start c s status header position calls
      = { s := t, host := ⟨.skipping, false⟩, todo := [.fsSkip primingSkip], call := none, calls := calls, ended := false,
          outcomes := [], given := [], counted := 0, emitted := [] } := by
    unfold Play.start
    rw [learn_eq (streamStep_start c false hready)]
    refine (hostStep_access rfl (r := audioReset) (rest := [.fsSkip primingSkip]) rfl).trans ?_
    exact access_store hm
  rw [hstart]
  refine ⟨hframe.par_eq ▸ hpar, (congrArg Params.bufSize hframe.par_eq).trans hsize.symm, hu, rfl,
    ⟨rfl, fun k _ hk => absurd hk (Nat.not_lt_zero k)⟩,
    .calling _ none primingSkip 0 (.skipping rfl ?_) ⟨nofun, nofun, nofun⟩ (.waiting rfl rfl (hframe.eng_eq.trans he) rfl)⟩
  rw [hfifo]
  exact ⟨rfl, rfl, rfl, rfl, rfl, rfl⟩

theorem playInv_move {c : StreamConfig} (m : PlayMove) (p : Play) (h : PlayInv c p) : PlayInv c (p.move c m) := by
  cases m with
  | host => exact playInv_host h
  | engine => exact playInv_engine h
  | tclk => exact playInv_clock h
  | pclk => exact playInv_pclk h

/-- The counts of R256, wherever the host is. -/
theorem Place.counts {c : StreamConfig} {p : Play} (h : Place c p) :
    p.counted ≤ p.given.length ∧ (p.counted ≠ 0 → p.counted = p.emitted.length + p.s.arem.toNat) := by
  have hquiet : Quiet (fifoPart p.s) p.emitted.length p.counted → p.counted ≤ p.given.length
      ∧ (p.counted ≠ 0 → p.counted = p.emitted.length + p.s.arem.toNat) := fun hq =>
    ⟨hq.counted.trans_le (Nat.zero_le _), fun hne => absurd hq.counted hne⟩
  have hrun : ∀ {q}, Running q (fifoPart p.s) p.emitted.length p.counted p.given.length → p.counted ≤ p.given.length
      ∧ (p.counted ≠ 0 → p.counted = p.emitted.length + p.s.arem.toNat) := fun hr => ⟨hr.le, fun _ => hr.count⟩
  cases h with
  | calling act target want base hph =>
    cases hph with
    | skipping _ hq => exact hquiet hq
    | fillFirst _ hq => exact hquiet hq
    | fillSecond _ _ hq => exact hquiet hq
    | refill q b _ _ hr => exact hrun hr
  | prime w _ _ hq => exact hquiet hq
  | play q w _ _ hr => exact hrun hr
  | swapped q _ _ hr => exact hrun hr
  | add q n w _ _ hr => exact hrun hr
  | stopped _ _ _ _ hcnt hle => exact ⟨hle, hcnt⟩

/-- A host that has stopped is at the place of a stopped one. -/
theorem Place.emitted_of_stopped {c : StreamConfig} {p : Play} (h : Place c p) (hph : p.host.phase = .stopped) :
    p.emitted.length = p.given.length := by
  have hother : ∀ {phase}, p.host.phase = phase → phase ≠ .stopped → p.emitted.length = p.given.length := fun h1 h2 =>
    absurd (h1.symm.trans hph) h2
  have hwaits : ∀ {w}, Waits c p w → p.emitted.length = p.given.length := fun hw => by
    cases hw with
    | swap h1 => exact hother h1 nofun
    | drain h1 => exact hother h1 nofun
  cases h with
  | calling act target want base hcall =>
    cases hcall with
    | skipping h1 => exact hother h1 nofun
    | fillFirst h1 => exact hother h1 nofun
    | fillSecond _ h1 => exact hother h1 nofun
    | refill q b h1 => exact hother h1 nofun
  | prime w _ hw => exact hwaits hw
  | play q w _ hw => exact hwaits hw
  | swapped q _ h1 => exact hother h1 nofun
  | add q n w _ hw => exact hwaits hw
  | stopped _ _ hg => exact hg

theorem result_eq_some {h : StreamHost} {ok : Bool} (hr : h.result = some ok) : h.phase = .stopped ∧ ok = !h.failed := by
  unfold StreamHost.result at hr
  split at hr
  · next hph => exact ⟨hph, (Option.some.inj hr).symm⟩
  · cases hr

/-- Settles O35: the invariant holds from the start and is kept by every move. -/
theorem emittedBytesAreTheSuppliedBytesInOrder : Obligations.EmittedBytesAreTheSuppliedBytesInOrder := by
  rintro c s status header position calls ms hpar hsize hb hready p rfl
  have h := Play.run_induct (P := PlayInv c) c playInv_move ms (playInv_start calls hpar hsize hb hready)
  generalize Play.run c ms (Play.start c s status header position calls) = p at h
  obtain ⟨hle, hcnt⟩ := h.place.counts
  refine ⟨h.data.prefix_eq, hle, hcnt, h.underrun, fun ok hr => ?_⟩
  obtain ⟨hph, hok⟩ := result_eq_some hr
  have hprefix := h.data.prefix_eq
  rw [h.place.emitted_of_stopped hph, List.take_length] at hprefix
  exact ⟨hprefix, hok.trans (congrArg _ h.failed)⟩

end Sys2Proof.Machine
